-- ==== Sys2Proof/Word.lean ====
section
/-! DEFINITION. The widths the spec names: a 32-bit descriptor, WDATA or rdata word (R70, R72), a 16-bit offset, counter, pointer or
length (R7, R22), an 8-bit character (R7), and the two access sizes narrower than a word (R72). -/

namespace Sys2Proof

/-- A 32-bit word: an event descriptor, a bus write's WDATA, a bus read's rdata (R70, R72, R74). -/
abbrev Word := BitVec 32

/-- A 16-bit value: a bus offset, the idle counter, the threshold, the write pointer, a length (R7, R22). -/
abbrev Half := BitVec 16

/-- One received character, one byte of a frame-buffer bank (R7, R27). -/
abbrev Byte := BitVec 8

/-- The access sizes the block rejects: SIZE = 0 (8-bit) and SIZE = 1 (16-bit) (R72, R132). -/
inductive NarrowSize where
  | bits8
  | bits16
  deriving DecidableEq, Repr

end Sys2Proof
end

