-- ==== Sys2Proof/Config.lean ====
section
/-! DEFINITION. What a build of the block fixes (R7 to R10), and the free values (R15). -/

namespace Sys2Proof

/-- `BUFFERING` (R9): one bank shared by receiver and mailbox, or two banks. -/
inductive Buffering where
  | shared
  | double
  deriving DecidableEq, Repr

/-- `CLOCKING` (R10): one clock, or two unrelated clocks. -/
inductive Clocking where
  | sameClock
  | async
  deriving DecidableEq, Repr

/-- The build parameters (R7). `capLess1` is FRAME_CAP - 1, so that every value of the type is one the spec admits:
1 ≤ FRAME_CAP ≤ 65280 (R7, R8). -/
structure Build where
  capLess1  : Fin 65280
  buffering : Buffering
  clocking  : Clocking
  deriving DecidableEq, Repr

/-- `FRAME_CAP`, the capacity of one bank in bytes (R8). -/
def Build.frameCap (b : Build) : Nat := b.capLess1.val + 1

/-- `NBANK`: 1 if SHARED, 2 if DOUBLE (R7). -/
def Build.nbank (b : Build) : Nat :=
  match b.buffering with
  | .shared => 1
  | .double => 2

/-- `NW = ⌈FRAME_CAP / 4⌉`, the number of words of the data window (R48, R67). -/
def Build.nw (b : Build) : Nat := (b.frameCap + 3) / 4

/-- The build the fixed constant `State.reset` is given. The spec leaves all three parameters open (R7) and specifies every
combination; DESIGN CHOICE (log entry 2): FRAME_CAP = 16, DOUBLE, SAME_CLOCK. Safe for statements over all states, unsafe for
a statement about `State.reset` alone, which would be about this build. -/
def Config.resetBuild : Build := { capLess1 := 15, buffering := .double, clocking := .sameClock }

/-- A `draw(w)` (R15), the `n`-th one handed out: a free value of `w` bits. It has no body, so nothing can be proved of it,
and each `n` is used for one draw only (log entry 6). -/
opaque Config.draw (w n : Nat) : BitVec w

end Sys2Proof
end

