-- ==== Sys2Proof/Syntax.lean ====
section
/-! DEFINITION. The events of the block, one constructor per row of spec/opcode_table.json (R79), with the operands the decoding
function gives them (R83, R72). -/

namespace Sys2Proof

/-- One event: one atomic step of one agent (R13, R14, R79). -/
inductive Instr where
  -- receiver cycles (R71, R83)
  | rxcNop
  | rxcByte (d : Byte) (e t : Bool)
  | rxcEdge (t : Bool)
  | rxcTick
  -- bus reads (R72, R131)
  | busrCtrl
  | busrIdleThr
  | busrStatus
  | busrPop
  | busrRelease
  | busrRxLevel
  | busrIdleCnt
  | busrConfig
  | busrData (k : Nat)
  | busrRsvd (off : Half)
  | busrMisaligned (off : Half)
  | busrBadsize (size : NarrowSize) (off : Half)
  -- bus writes (R72, R131); `wdata` is the operand WDATA
  | buswCtrl (wdata : Word)
  | buswIdleThr (wdata : Word)
  | buswStatus (wdata : Word)
  | buswPop (wdata : Word)
  | buswRelease (wdata : Word)
  | buswRxLevel (wdata : Word)
  | buswIdleCnt (wdata : Word)
  | buswConfig (wdata : Word)
  | buswData (k : Nat) (wdata : Word)
  | buswRsvd (off : Half) (wdata : Word)
  | buswMisaligned (off : Half) (wdata : Word)
  | buswBadsize (size : NarrowSize) (off : Half) (wdata : Word)
  -- synchronizer steps (R75)
  | syncSet
  | syncRel
  -- reset (R76)
  | rst
  deriving DecidableEq, Repr

end Sys2Proof
end

