-- ==== Sys2Proof/WellFormed.lean ====
section
/-! DEFINITION. Which events a build's descriptors can spell: the conditions the opcode map puts on OFFSET (R79, R131). Written from
the map's own ranges, apart from the decoder. -/

namespace Sys2Proof

/-- OFFSET is a multiple of 4 (R55). -/
def offsetAligned (off : Half) : Bool := off.toNat % 4 == 0

/-- An aligned offset that names no register: 0x0020-0x00FC, or at or beyond the end of the data window (R150). -/
def offsetReserved (b : Build) (off : Half) : Bool :=
  offsetAligned off &&
    ((0x20 ≤ off.toNat && off.toNat < 0x100) || 0x100 + 4 * b.nw ≤ off.toNat)

/-- The event can be spelt by a descriptor on this build (R79): a DATA index lies in the window (R148), a RSVD offset is
reserved (R150), a MISALIGNED offset is not a multiple of 4 (R133); every other operand is free. -/
def Instr.wf (b : Build) : Instr → Bool
  | .busrData k => k < b.nw
  | .buswData k _ => k < b.nw
  | .busrRsvd off => offsetReserved b off
  | .buswRsvd off _ => offsetReserved b off
  | .busrMisaligned off => !offsetAligned off
  | .buswMisaligned off _ => !offsetAligned off
  | .rxcNop => true
  | .rxcByte _ _ _ => true
  | .rxcEdge _ => true
  | .rxcTick => true
  | .busrCtrl => true
  | .busrIdleThr => true
  | .busrStatus => true
  | .busrPop => true
  | .busrRelease => true
  | .busrRxLevel => true
  | .busrIdleCnt => true
  | .busrConfig => true
  | .busrBadsize _ _ => true
  | .buswCtrl _ => true
  | .buswIdleThr _ => true
  | .buswStatus _ => true
  | .buswPop _ => true
  | .buswRelease _ => true
  | .buswRxLevel _ => true
  | .buswIdleCnt _ => true
  | .buswConfig _ => true
  | .buswBadsize _ _ _ => true
  | .syncSet => true
  | .syncRel => true
  | .rst => true

end Sys2Proof
end

