-- ==== Sys2Proof/Decode.lean ====
section
/-! DEFINITION. The decoding function, total on every list of words (R70 to R76, R80, R83, R131), and after it an encoder written
from the same formats. A descriptor is a word, not bytes: the encoding is a modelling interface with no stored form (D33). -/

namespace Sys2Proof

/-- Why the words at the head of the event stream spell no event. -/
inductive DecodeError where
  /-- the stream is empty: no event arrives (log entry 3) -/
  | noEvent
  /-- CLASS is 0x5 to 0xF (R80 a) -/
  | reservedClass
  /-- a must-be-0 bit of the word's format is 1 (R80 b) -/
  | mustBeZero
  /-- a bus descriptor with SIZE = 3 (R80 c) -/
  | reservedSize
  /-- a bus write's descriptor with no WDATA after it (R82; log entry 4) -/
  | missingWdata
  deriving DecidableEq, Repr

/-- `CLASS = w[31:28]` (R70). -/
def classOf (w : Word) : BitVec 4 := w.extractLsb' 28 4

/-- `SIZE = w[25:24]` (R72). -/
def sizeField (w : Word) : BitVec 2 := w.extractLsb' 24 2

/-- `OFFSET = w[15:0]` (R72). -/
def offsetOf (w : Word) : Half := w.extractLsb' 0 16

/-- Format RXC (R71, R83): a byte beats an edge, an edge beats a tick. D is dropped when V = 0. -/
def decodeRxc (w : Word) : Except DecodeError Instr :=
  if w.extractLsb' 11 17 ≠ 0 then .error .mustBeZero
  else if w.getLsbD 8 then .ok (.rxcByte (w.extractLsb' 0 8) (w.getLsbD 9) (w.getLsbD 10))
  else if w.getLsbD 9 then .ok (.rxcEdge (w.getLsbD 10))
  else if w.getLsbD 10 then .ok .rxcTick
  else .ok .rxcNop

/-- The registers of the port (R48). -/
inductive Reg where
  | ctrl
  | idleThr
  | status
  | pop
  | release
  | rxLevel
  | idleCnt
  | config
  | data (k : Nat)
  deriving DecidableEq, Repr

/-- `reg(off)` for an aligned offset (R131); `none` is the rule's NONE. -/
def regOf (b : Build) (off : Half) : Option Reg :=
  if off = 0x0000 then some .ctrl
  else if off = 0x0004 then some .idleThr
  else if off = 0x0008 then some .status
  else if off = 0x000C then some .pop
  else if off = 0x0010 then some .release
  else if off = 0x0014 then some .rxLevel
  else if off = 0x0018 then some .idleCnt
  else if off = 0x001C then some .config
  else if 0x100 ≤ off.toNat ∧ off.toNat < 0x100 + 4 * b.nw then some (.data ((off.toNat - 0x100) / 4))
  else none

/-- A bus descriptor after the checks of R130 and R131: size, then alignment, then offset. -/
inductive BusForm where
  | badsize (size : NarrowSize) (off : Half)
  | misaligned (off : Half)
  | reg (r : Reg)
  | rsvd (off : Half)
  deriving DecidableEq, Repr

/-- An access of SIZE = 2: alignment, then offset (R131). -/
def wordForm (b : Build) (off : Half) : BusForm :=
  if off.extractLsb' 0 2 ≠ 0 then .misaligned off
  else
    match regOf b off with
    | some r => .reg r
    | none => .rsvd off

/-- Formats BUSR and BUSW (R72, R83), then the order of R131. -/
def decodeBus (b : Build) (w : Word) : Except DecodeError BusForm :=
  if w.extractLsb' 26 2 ≠ 0 ∨ w.extractLsb' 16 8 ≠ 0 then .error .mustBeZero
  else if sizeField w = 3 then .error .reservedSize
  else if sizeField w = 0 then .ok (.badsize .bits8 (offsetOf w))
  else if sizeField w = 1 then .ok (.badsize .bits16 (offsetOf w))
  else .ok (wordForm b (offsetOf w))

/-- The bus read a form spells (R79). -/
def busRead : BusForm → Instr
  | .badsize size off => .busrBadsize size off
  | .misaligned off => .busrMisaligned off
  | .rsvd off => .busrRsvd off
  | .reg .ctrl => .busrCtrl
  | .reg .idleThr => .busrIdleThr
  | .reg .status => .busrStatus
  | .reg .pop => .busrPop
  | .reg .release => .busrRelease
  | .reg .rxLevel => .busrRxLevel
  | .reg .idleCnt => .busrIdleCnt
  | .reg .config => .busrConfig
  | .reg (.data k) => .busrData k

/-- The bus write a form spells, with its operand (R79). -/
def busWrite (wdata : Word) : BusForm → Instr
  | .badsize size off => .buswBadsize size off wdata
  | .misaligned off => .buswMisaligned off wdata
  | .rsvd off => .buswRsvd off wdata
  | .reg .ctrl => .buswCtrl wdata
  | .reg .idleThr => .buswIdleThr wdata
  | .reg .status => .buswStatus wdata
  | .reg .pop => .buswPop wdata
  | .reg .release => .buswRelease wdata
  | .reg .rxLevel => .buswRxLevel wdata
  | .reg .idleCnt => .buswIdleCnt wdata
  | .reg .config => .buswConfig wdata
  | .reg (.data k) => .buswData k wdata

/-- Format SYNC (R75, R83). -/
def decodeSync (w : Word) : Except DecodeError Instr :=
  if w.extractLsb' 1 27 ≠ 0 then .error .mustBeZero
  else if w.getLsbD 0 then .ok .syncRel
  else .ok .syncSet

/-- Format RST (R76, R83). -/
def decodeRst (w : Word) : Except DecodeError Instr :=
  if w.extractLsb' 0 28 ≠ 0 then .error .mustBeZero else .ok .rst

/-- A bus write's descriptor, then its operand word (R70, R82). -/
def decodeBusw (b : Build) (w : Word) : List Word → Except DecodeError (Instr × List Word)
  | [] => (decodeBus b w).bind fun _ => .error .missingWdata
  | wdata :: rest => (decodeBus b w).map fun f => (busWrite wdata f, rest)

/-- The decoding function (R83): the event at the head of the stream and what follows it, or why there is none. -/
def decode (b : Build) : List Word → Except DecodeError (Instr × List Word)
  | [] => .error .noEvent
  | w :: ws =>
    if classOf w = 0 then (decodeRxc w).map fun i => (i, ws)
    else if classOf w = 1 then (decodeBus b w).map fun f => (busRead f, ws)
    else if classOf w = 2 then decodeBusw b w ws
    else if classOf w = 3 then (decodeSync w).map fun i => (i, ws)
    else if classOf w = 4 then (decodeRst w).map fun i => (i, ws)
    else .error .reservedClass

/-! The encoder: the words of an event, from the formats of R71, R72, R75 and R76 and the map of R79. -/

/-- A word of format RXC (R71). -/
def rxcWord (d : Byte) (v e t : Bool) : Word :=
  0x0#4 ++ 0#17 ++ BitVec.ofBool t ++ BitVec.ofBool e ++ BitVec.ofBool v ++ d

/-- A word of format BUSR (CLASS 1) or BUSW (CLASS 2) (R72). -/
def busWord (cls : BitVec 4) (size : BitVec 2) (off : Half) : Word :=
  cls ++ 0#2 ++ size ++ 0#8 ++ off

/-- A word of format SYNC (R75). -/
def syncWord (w : Bool) : Word := 0x3#4 ++ 0#27 ++ BitVec.ofBool w

/-- The word of format RST (R76). -/
def rstWord : Word := 0x4#4 ++ 0#28

/-- The SIZE field of a narrow access (R72). -/
def narrowBits : NarrowSize → BitVec 2
  | .bits8 => 0
  | .bits16 => 1

/-- The offset of `DATA[k]` (R84). -/
def dataOffset (k : Nat) : Half := BitVec.ofNat 16 (0x100 + 4 * k)

/-- The words of an event (R70, R79). D is encoded as 0 where V = 0 (log entry 9). -/
def encode : Instr → List Word
  | .rxcNop => [rxcWord 0 false false false]
  | .rxcByte d e t => [rxcWord d true e t]
  | .rxcEdge t => [rxcWord 0 false true t]
  | .rxcTick => [rxcWord 0 false false true]
  | .busrCtrl => [busWord 1 2 0x0000]
  | .busrIdleThr => [busWord 1 2 0x0004]
  | .busrStatus => [busWord 1 2 0x0008]
  | .busrPop => [busWord 1 2 0x000C]
  | .busrRelease => [busWord 1 2 0x0010]
  | .busrRxLevel => [busWord 1 2 0x0014]
  | .busrIdleCnt => [busWord 1 2 0x0018]
  | .busrConfig => [busWord 1 2 0x001C]
  | .busrData k => [busWord 1 2 (dataOffset k)]
  | .busrRsvd off => [busWord 1 2 off]
  | .busrMisaligned off => [busWord 1 2 off]
  | .busrBadsize size off => [busWord 1 (narrowBits size) off]
  | .buswCtrl wdata => [busWord 2 2 0x0000, wdata]
  | .buswIdleThr wdata => [busWord 2 2 0x0004, wdata]
  | .buswStatus wdata => [busWord 2 2 0x0008, wdata]
  | .buswPop wdata => [busWord 2 2 0x000C, wdata]
  | .buswRelease wdata => [busWord 2 2 0x0010, wdata]
  | .buswRxLevel wdata => [busWord 2 2 0x0014, wdata]
  | .buswIdleCnt wdata => [busWord 2 2 0x0018, wdata]
  | .buswConfig wdata => [busWord 2 2 0x001C, wdata]
  | .buswData k wdata => [busWord 2 2 (dataOffset k), wdata]
  | .buswRsvd off wdata => [busWord 2 2 off, wdata]
  | .buswMisaligned off wdata => [busWord 2 2 off, wdata]
  | .buswBadsize size off wdata => [busWord 2 (narrowBits size) off, wdata]
  | .syncSet => [syncWord false]
  | .syncRel => [syncWord true]
  | .rst => [rstWord]

/-! The opcode table's words. -/

/-- The words of the instruction whose low `nbits` bits are `w` and whose bits above are 0: the descriptor, and the operand
word after a descriptor of CLASS 2 (R70, R82). -/
def tableWords (nbits w : Nat) : List Word :=
  let x := w % 2 ^ nbits
  let first := BitVec.ofNat 32 x
  if classOf first = 2 then [first, BitVec.ofNat 32 (x / 2 ^ 32)] else [first]

/-- The event the decoder reads from a word of spec/opcode_table.json, on the build of `State.reset` (log entry 2). -/
def decodeTableWord (nbits w : Nat) : Option Instr :=
  match decode Config.resetBuild (tableWords nbits w) with
  | .ok (i, _) => some i
  | .error _ => none

end Sys2Proof
end

