-- ==== Sys2Proof/Machine/State.lean ====
section
/-! DEFINITION. The state: the block's record (R22), the build parameters (R7), and the model's own three fields (the events to come,
the response just given, the number of draws handed out). The reasons a step can stop. The state after reset (R190). -/

namespace Sys2Proof.Machine

open Sys2Proof

/-- The receiver state (R23). The encoding's value 3 is never held, so the type has three values (U18). -/
inductive Rxs where
  | idle
  | accum
  | discard
  deriving DecidableEq, Repr

/-- The frame-buffer storage as (address, byte) cells, addresses strictly rising (`Memory.wf`). An address not listed is `None`:
never written since reset (R27). -/
abbrev Memory := List Host.Cell

/-- The complete state of the block, the record of R22. -/
structure Block where
  /-- receiver state (R23) -/
  rxs        : Rxs
  /-- bytes of the current frame written, and the next index (R24) -/
  wrPtr      : Half
  /-- ticks since the last byte or edge of the frame (R25) -/
  idleCnt    : Half
  /-- the bank that receives bytes (R26) -/
  accBank    : BitVec 1
  /-- `bank[b][i]` (R27) -/
  bank       : Memory
  /-- the bank that holds the published frame (R28) -/
  mbBank     : BitVec 1
  /-- the length of the published frame (R29) -/
  mbLen      : Half
  /-- the slot's bank was written after it was published (R30) -/
  slotDirty  : Bool
  /-- the receiver's view of the slot (R31) -/
  slotFull   : Bool
  /-- the completion flag in flight (R32) -/
  setPending : Bool
  /-- the release in flight (R33) -/
  relPending : Bool
  /-- the Completion Signal as the consumer sees it (R35) -/
  ready      : Bool
  /-- popped and not released (R34) -/
  held       : Bool
  /-- receiver enable, CTRL[0] (R36) -/
  en         : Bool
  /-- interrupt enable, ready, CTRL[1] (R36) -/
  rdyIe      : Bool
  /-- interrupt enable, errors, CTRL[2] (R36) -/
  errIe      : Bool
  /-- the idle threshold (R40) -/
  idleThr    : Half
  /-- sticky FrameOverflow, STATUS[2] (R37) -/
  ovf        : Bool
  /-- sticky mailbox overrun, STATUS[3] (R38) -/
  mboxOvr    : Bool
  /-- sticky overlap hazard, STATUS[4] (R39) -/
  haz        : Bool
  deriving DecidableEq, Repr

/-- The one response of a bus event (R74). -/
inductive Response where
  /-- `respond(OKAY, rdata)`: a read that is carried out -/
  | okayRead (rdata : Word)
  /-- `respond(OKAY)`: a write that is carried out or ignored -/
  | okayWrite
  /-- `respond(ERR)`: an access the block rejects -/
  | err
  deriving DecidableEq, Repr

/-- The machine: the block, its build, and the outside's side of the interface. -/
structure State where
  /-- the block's record (R22) -/
  blk    : Block
  /-- the build parameters, arguments of every step (R7); no step writes them (log entry 1) -/
  build  : Build
  /-- MODEL FIELD: the descriptor words still to come, the order of events the outside chose (R13, R70; log entry 3) -/
  events : List Word
  /-- MODEL FIELD: what the event just taken returned to the agent that issued it; `none` when it was no bus access
  (R74; log entry 5) -/
  resp   : Option Response
  /-- MODEL FIELD: how many draws have been handed out (R15; log entry 6) -/
  drawn  : Nat
  deriving DecidableEq, Repr

/-- A step that stops the machine. -/
inductive Fault where
  /-- raised by `bankWrite` for a byte outside `b < NBANK`, `i < FRAME_CAP`, storage the block does not have (R22, R27). No
  reachable state raises it (R24, R46). SAFE: the machine stops where the spec gives no storage (log entry 8). -/
  | noSuchBankByte
  deriving DecidableEq, Repr

/-- No event to take. -/
inductive Refusal where
  /-- raised by `exec` for an instruction with no meaning yet. SAFE. -/
  | notModelled (mnemonic : String)
  /-- raised by `step` when the event stream is empty: no agent takes a step (R13). SAFE (log entry 3). -/
  | noEvent
  /-- raised by `step` for a word with CLASS 0x5 to 0xF: the decoder refuses it and it has no step (R80 a). SAFE. -/
  | reservedClass
  /-- raised by `step` for a word with a must-be-0 bit set: refused, no step (R80 b). SAFE. -/
  | mustBeZero
  /-- raised by `step` for a bus descriptor with SIZE = 3: refused, no step (R80 c). SAFE. -/
  | reservedSize
  /-- raised by `step` for a bus write's descriptor at the very end of the stream, with no operand after it (R82). SAFE
  (log entry 4). -/
  | missingWdata
  deriving DecidableEq, Repr

/-- The block right after reset (R22, R190). -/
def Block.reset : Block where
  rxs        := .idle
  wrPtr      := 0
  idleCnt    := 0
  accBank    := 0
  bank       := []
  mbBank     := 0
  mbLen      := 0
  slotDirty  := false
  slotFull   := false
  setPending := false
  relPending := false
  ready      := false
  held       := false
  en         := false
  rdyIe      := false
  errIe      := false
  idleThr    := 0xFFFF
  ovf        := false
  mboxOvr    := false
  haz        := false

/-- The machine right after reset (R190), with the build of `Config.resetBuild` (log entry 2) and nothing yet driven at it. -/
def State.reset : State where
  blk    := Block.reset
  build  := Config.resetBuild
  events := []
  resp   := none
  drawn  := 0

end Sys2Proof.Machine
end

