-- ==== Sys2Proof/Machine/Ops.lean ====
section
/-! DEFINITION. The shared operations: the frame-buffer storage, the bus response, the draws, the start of an event. The block
takes no exception and returns from none (R170): what it has in their place are the ERR response (`respondErr`, R171) and the
sticky flags (Flags.lean, R177). -/

namespace Sys2Proof.Machine

open Sys2Proof

/-! ### Storage -/

/-- The canonical form of the storage: addresses strictly rising. -/
abbrev Memory.wf (m : Memory) : Prop := m.Pairwise fun c d => c.1 < d.1

/-- The byte at an address, `none` where nothing has been written since reset (R12 `BankRead`, R27). -/
def Memory.read : Memory → Nat → Option Byte
  | [], _ => none
  | (c, v) :: m, a => if c = a then some v else Memory.read m a

/-- Store one byte, keeping the canonical form (R12 `BankWrite`). -/
def Memory.write : Memory → Nat → Byte → Memory
  | [], a, v => [(a, v)]
  | (c, u) :: m, a, v =>
    if a < c then (a, v) :: (c, u) :: m
    else if a = c then (a, v) :: m
    else (c, u) :: Memory.write m a v

/-- The address of byte `i` of bank `bk` in the storage; `i < 65536` (log entry 7). -/
def bankAddr (bk : BitVec 1) (i : Nat) : Nat := bk.toNat * 65536 + i

/-- `bank[bk][i]` exists on this build (R22, R27). -/
def bankExists (b : Build) (bk : BitVec 1) (i : Nat) : Bool := bk.toNat < b.nbank && i < b.frameCap

/-- `BankRead(bk, i)` (R12). -/
def bankRead (k : Block) (bk : BitVec 1) (i : Nat) : Option Byte := Memory.read k.bank (bankAddr bk i)

/-- `BankWrite(bk, i, v)` (R12); `none` where the block has no such byte (log entry 8). -/
def bankWrite (b : Build) (bk : BitVec 1) (i : Nat) (v : Byte) (k : Block) : Option Block :=
  if bankExists b bk i then some { k with bank := Memory.write k.bank (bankAddr bk i) v } else none

/-! ### Arithmetic (R12) -/

/-- `sat_inc(v)` (R12). -/
def satInc (v : Half) : Half := if v < 0xFFFF then v + 1 else 0xFFFF

/-- `max(a, b)` of two unsigned values (R12). -/
def maxU (x y : Half) : Half := if x < y then y else x

/-! ### The state -/

/-- Replace the block's record. -/
def State.setBlk (k : Block) (s : State) : State := { s with blk := k }

/-- End a bus event with its response (R74). -/
def State.respond (r : Response) (s : State) : State := { s with resp := some r }

/-- Hand out `n` draws (R15). -/
def State.spend (n : Nat) (s : State) : State := { s with drawn := s.drawn + n }

/-- An event begins: its words leave the stream, and it has given no response yet (R13, R74). -/
def State.beginEvent (rest : List Word) (s : State) : State := { s with events := rest, resp := none }

/-- A bus event that ends with a response and changes no state of the block. -/
def respondOnly (r : Response) (s : State) : Host.Outcome State Fault Refusal := .next (s.respond r)

/-- `respond(ERR)`: the access is rejected, no state changes, nothing is recorded (R74, R171). -/
def respondErr (s : State) : Host.Outcome State Fault Refusal := respondOnly .err s

/-- A bus write that is carried out: the block's record changes and the response is OKAY (R74). -/
def respondWrite (k : Block) (s : State) : Host.Outcome State Fault Refusal :=
  .next ((s.setBlk k).respond .okayWrite)

/-- One receiver cycle (R90): while `en` is false nothing changes (R91); otherwise the event acts on the block, and stops the
machine where it would write storage the block does not have. -/
def rxCycle (s : State) (event : Option Block) : Host.Outcome State Fault Refusal :=
  if s.blk.en then
    match event with
    | some k => .next (s.setBlk k)
    | none => .fault .noSuchBankByte
  else .next s

/-- The refusal a step answers with when the stream's head spells no event (R80). -/
def refusalOf : DecodeError → Refusal
  | .noEvent => .noEvent
  | .reservedClass => .reservedClass
  | .mustBeZero => .mustBeZero
  | .reservedSize => .reservedSize
  | .missingWdata => .missingWdata

end Sys2Proof.Machine
end

