-- ==== Sys2Proof/Machine/Flags.lean ====
section
/-! DEFINITION. The flags: the sticky error flags and the interrupt output (R37 to R41, R47, R172 to R177). -/

namespace Sys2Proof.Machine

open Sys2Proof

/-- The interrupt output, a function of the state (R41). -/
def Block.irq (k : Block) : Bool := (k.ready && k.rdyIe) || ((k.ovf || k.mboxOvr || k.haz) && k.errIe)

/-- `mark_overlap()`: a byte was written into the bank while the slot is occupied (R96, R174). -/
def markOverlap (b : Build) (k : Block) : Block :=
  if b.buffering = .shared ∧ k.slotFull = true then { k with slotDirty := true, haz := true } else k

/-- The write-1-to-clear of STATUS (R142): a flag whose mask bit is 1 is cleared, no flag is set. -/
def clearSticky (ovfMask mboxOvrMask hazMask : Bool) (k : Block) : Block :=
  { k with
    ovf := k.ovf && !ovfMask
    mboxOvr := k.mboxOvr && !mboxOvrMask
    haz := k.haz && !hazMask }

end Sys2Proof.Machine
end

