-- ==== Sys2Proof/Machine/Operands.lean ====
section
/-! DEFINITION. Operand forms: how WDATA is taken apart (R77), how each register's rdata is put together (R78, R48), and the
lanes of the data window (R53, R148). -/

namespace Sys2Proof.Machine

open Sys2Proof

/-- The encoding of `rxs` in STATUS[6:5] (R23, R141). -/
def Rxs.enc : Rxs → BitVec 2
  | .idle => 0
  | .accum => 1
  | .discard => 2

/-- A diagnostic field (R138): the current value on one clock, a draw of the field's width (the next one to be handed out) in
ASYNC mode. -/
def diagnostic {w : Nat} (s : State) (current : BitVec w) : BitVec w :=
  match s.build.clocking with
  | .sameClock => current
  | .async => Config.draw w s.drawn

/-- A 16-bit field in bits 15..0, the reserved bits 0 (R78). -/
def halfWord (v : Half) : Word := 0#16 ++ v

/-- CTRL (R48, R135). -/
def ctrlWord (k : Block) : Word :=
  0#29 ++ BitVec.ofBool k.errIe ++ BitVec.ofBool k.rdyIe ++ BitVec.ofBool k.en

/-- STATUS (R48, R78, R141), with the field RXS given. -/
def statusWord (k : Block) (rx : BitVec 2) : Word :=
  0#24 ++ BitVec.ofBool k.irq ++ rx ++ BitVec.ofBool k.haz ++ BitVec.ofBool k.mboxOvr ++
    BitVec.ofBool k.ovf ++ BitVec.ofBool k.held ++ BitVec.ofBool k.ready

/-- POP with VALID = 1 (R78, R143). -/
def popWord (len : Half) : Word := 1#1 ++ 0#15 ++ len

/-- CONFIG (R48, R149). -/
def configWord (b : Build) : Word :=
  0#14 ++ BitVec.ofBool (b.clocking = .async) ++ BitVec.ofBool (b.buffering = .double) ++ BitVec.ofNat 16 b.frameCap

/-- Byte `i` of the data window where the spec defines it (R148); `none` where the lane is a draw. -/
def windowByte (k : Block) (i : Nat) : Option Byte :=
  if (k.ready || k.held) && !k.slotDirty && decide (i < k.mbLen.toNat) then bankRead k k.mbBank i else none

/-- Lane `j` of `DATA[n]` (R148): byte `4n + j`, or a draw of its own. -/
def dataLane (s : State) (n j : Nat) : Byte := (windowByte s.blk (4 * n + j)).getD (Config.draw 8 (s.drawn + j))

/-- `{lane[3], lane[2], lane[1], lane[0]}` (R148): the byte with the lowest index in the least significant lane (R53). -/
def dataWord (s : State) (n : Nat) : Word := dataLane s n 3 ++ dataLane s n 2 ++ dataLane s n 1 ++ dataLane s n 0

/-- WDATA bit `n`, one bit of a register's operand (R77). -/
def wdataBit (wdata : Word) (n : Nat) : Bool := wdata.getLsbD n

/-- `WDATA[15:0]` (R77). -/
def wdataHalf (wdata : Word) : Half := wdata.extractLsb' 0 16

end Sys2Proof.Machine
end

