-- ==== Sys2Proof/Machine/BusRead.lean ====
section
/-! DEFINITION. The bus reads (R130, R132, R133, R135, R136, R138, R140, R141, R143, R145, R147, R148, R149, R150). A read that may
return draws hands out a fixed number of them (one for a diagnostic field in ASYNC mode, four for a data word), used or not. -/

namespace Sys2Proof.Machine

open Sys2Proof

/-- A read of a register with a diagnostic field (R138): in ASYNC mode the field's draw is spent. -/
def respondDiagnostic (rdata : Word) (s : State) : Host.Outcome State Fault Refusal :=
  match s.build.clocking with
  | .sameClock => respondOnly (.okayRead rdata) s
  | .async => respondOnly (.okayRead rdata) (s.spend 1)

/-- `read_POP()`'s effect on the block when it takes a frame (R143). -/
def takeFrame (k : Block) : Block := { k with ready := false, held := true }

/-- BUSR.CTRL (R135). -/
def execBusrCtrl (s : State) : Host.Outcome State Fault Refusal := respondOnly (.okayRead (ctrlWord s.blk)) s

/-- BUSR.IDLE_THR (R136): the stored value, including 0. -/
def execBusrIdleThr (s : State) : Host.Outcome State Fault Refusal := respondOnly (.okayRead (halfWord s.blk.idleThr)) s

/-- BUSR.STATUS (R141). -/
def execBusrStatus (s : State) : Host.Outcome State Fault Refusal :=
  respondDiagnostic (statusWord s.blk (diagnostic s s.blk.rxs.enc)) s

/-- BUSR.POP (R143): the atomic read-and-clear of the Completion Signal. -/
def execBusrPop (s : State) : Host.Outcome State Fault Refusal :=
  if s.blk.ready then respondOnly (.okayRead (popWord s.blk.mbLen)) (s.setBlk (takeFrame s.blk))
  else respondOnly (.okayRead 0) s

/-- BUSR.RELEASE (R145): a write-only register reads 0. -/
def execBusrRelease (s : State) : Host.Outcome State Fault Refusal := respondOnly (.okayRead 0) s

/-- BUSR.RX_LEVEL (R140). -/
def execBusrRxLevel (s : State) : Host.Outcome State Fault Refusal :=
  respondDiagnostic (halfWord (diagnostic s s.blk.wrPtr)) s

/-- BUSR.IDLE_CNT (R147). -/
def execBusrIdleCnt (s : State) : Host.Outcome State Fault Refusal :=
  respondDiagnostic (halfWord (diagnostic s s.blk.idleCnt)) s

/-- BUSR.CONFIG (R149). -/
def execBusrConfig (s : State) : Host.Outcome State Fault Refusal := respondOnly (.okayRead (configWord s.build)) s

/-- BUSR.DATA (R148): four bytes of the mailbox bank, each the frame's byte or a draw. -/
def execBusrData (k : Nat) (s : State) : Host.Outcome State Fault Refusal :=
  respondOnly (.okayRead (dataWord s k)) (s.spend 4)

/-- BUSR.RSVD (R150). -/
def execBusrRsvd (s : State) : Host.Outcome State Fault Refusal := respondErr s

/-- BUSR.MISALIGNED (R133). -/
def execBusrMisaligned (s : State) : Host.Outcome State Fault Refusal := respondErr s

/-- BUSR.BADSIZE (R132). -/
def execBusrBadsize (s : State) : Host.Outcome State Fault Refusal := respondErr s

end Sys2Proof.Machine
end

