-- ==== Sys2Proof/Machine/Receiver.lean ====
section
/-! DEFINITION. The receiver cycles RXC.NOP, RXC.BYTE, RXC.EDGE and RXC.TICK, with append, overflow, expiry and publish
(R90 to R102). Each acts on the block's record; `none` is a write of storage the block does not have. -/

namespace Sys2Proof.Machine

open Sys2Proof

/-- The receiver is between frames: `rxs`, `wr_ptr` and `idle_cnt` as at a frame boundary (R100, R137). -/
def frameBoundary (k : Block) : Block := { k with rxs := .idle, wrPtr := 0, idleCnt := 0 }

/-- `start_frame(D)` (R95). -/
def startFrame (b : Build) (d : Byte) (k : Block) : Option Block :=
  (bankWrite b k.accBank 0 d k).map fun k' => markOverlap b { k' with wrPtr := 1, rxs := .accum, idleCnt := 0 }

/-- `append(D)` (R94). -/
def appendByte (b : Build) (d : Byte) (k : Block) : Option Block :=
  (bankWrite b k.accBank k.wrPtr.toNat d k).map fun k' => markOverlap b { k' with wrPtr := k.wrPtr + 1, idleCnt := 0 }

/-- `overflow()` (R97): the byte is not written, the frame is rejected. -/
def overflowFrame (k : Block) : Block := { k with rxs := .discard, ovf := true, idleCnt := 0 }

/-- `discard()` (R98): the byte is not written, the idle interval restarts. -/
def discardByte (k : Block) : Block := { k with idleCnt := 0 }

/-- `rxc_byte(D)` (R93). -/
def rxcByte (b : Build) (d : Byte) (k : Block) : Option Block :=
  match k.rxs with
  | .idle => startFrame b d k
  | .accum => if k.wrPtr.toNat < b.frameCap then appendByte b d k else some (overflowFrame k)
  | .discard => some (discardByte k)

/-- `publish(n)` (R101). -/
def publish (b : Build) (n : Half) (k : Block) : Block :=
  { k with
    slotFull := true
    setPending := true
    mbLen := n
    mbBank := k.accBank
    slotDirty := false
    accBank := if b.buffering = .double then 1 - k.accBank else k.accBank }

/-- `expire()` (R100): publish, or drop the frame and set `mbox_ovr`, or end a rejected frame. -/
def expire (b : Build) (k : Block) : Block :=
  match k.rxs with
  | .accum => frameBoundary (if k.slotFull then { k with mboxOvr := true } else publish b k.wrPtr k)
  | .discard => frameBoundary k
  | .idle => frameBoundary k

/-- `rxc_tick()` (R99). -/
def rxcTick (b : Build) (k : Block) : Block :=
  if k.rxs = .idle then k
  else if maxU k.idleThr 1 ≤ satInc k.idleCnt then expire b k
  else { k with idleCnt := satInc k.idleCnt }

/-- `rxc_edge()` (R102). -/
def rxcEdge (k : Block) : Block := if k.rxs = .idle then k else { k with idleCnt := 0 }

/-- RXC.NOP (R92): no state change. -/
def execRxcNop (s : State) : Host.Outcome State Fault Refusal := rxCycle s (some s.blk)

/-- RXC.BYTE (R93); the edge and tick inputs of the same cycle are ignored (R90, R103). -/
def execRxcByte (d : Byte) (s : State) : Host.Outcome State Fault Refusal := rxCycle s (rxcByte s.build d s.blk)

/-- RXC.EDGE (R102); the tick input of the same cycle is ignored (R90, R103). -/
def execRxcEdge (s : State) : Host.Outcome State Fault Refusal := rxCycle s (some (rxcEdge s.blk))

/-- RXC.TICK (R99). -/
def execRxcTick (s : State) : Host.Outcome State Fault Refusal := rxCycle s (some (rxcTick s.build s.blk))

end Sys2Proof.Machine
end

