-- ==== Sys2Proof/Machine/BusWrite.lean ====
section
/-! DEFINITION. The bus writes (R130, R132, R133, R137, R139, R142, R144, R146, R150, R151). -/

namespace Sys2Proof.Machine

open Sys2Proof

/-- The three control bits take the written values (R137). -/
def setControlBits (en rdyIe errIe : Bool) (k : Block) : Block := { k with en := en, rdyIe := rdyIe, errIe := errIe }

/-- `write_CTRL` (R137): a disable aborts the frame in progress. -/
def writeCtrl (en rdyIe errIe : Bool) (k : Block) : Block :=
  if k.en = true ∧ en = false then setControlBits en rdyIe errIe (frameBoundary k) else setControlBits en rdyIe errIe k

/-- `write_IDLE_THR` (R139): ignored while `en` is true. -/
def writeIdleThr (thr : Half) (k : Block) : Block := if k.en then k else { k with idleThr := thr }

/-- `write_RELEASE` (R146): ignored unless requested with a frame held. -/
def writeRelease (request : Bool) (k : Block) : Block :=
  if request && k.held then { k with held := false, relPending := true } else k

/-- BUSW.CTRL (R137). -/
def execBuswCtrl (wdata : Word) (s : State) : Host.Outcome State Fault Refusal :=
  respondWrite (writeCtrl (wdataBit wdata 0) (wdataBit wdata 1) (wdataBit wdata 2) s.blk) s

/-- BUSW.IDLE_THR (R139). -/
def execBuswIdleThr (wdata : Word) (s : State) : Host.Outcome State Fault Refusal :=
  respondWrite (writeIdleThr (wdataHalf wdata) s.blk) s

/-- BUSW.STATUS (R142). -/
def execBuswStatus (wdata : Word) (s : State) : Host.Outcome State Fault Refusal :=
  respondWrite (clearSticky (wdataBit wdata 2) (wdataBit wdata 3) (wdataBit wdata 4) s.blk) s

/-- BUSW.POP (R144): OKAY, no state changes. -/
def execBuswPop (s : State) : Host.Outcome State Fault Refusal := respondOnly .okayWrite s

/-- BUSW.RELEASE (R146). -/
def execBuswRelease (wdata : Word) (s : State) : Host.Outcome State Fault Refusal :=
  respondWrite (writeRelease (wdataBit wdata 0) s.blk) s

/-- BUSW.RX_LEVEL, a read-only register: OKAY, no state changes (R151). -/
def execBuswRxLevel (s : State) : Host.Outcome State Fault Refusal := respondOnly .okayWrite s

/-- BUSW.IDLE_CNT, a read-only register: OKAY, no state changes (R151). -/
def execBuswIdleCnt (s : State) : Host.Outcome State Fault Refusal := respondOnly .okayWrite s

/-- BUSW.CONFIG, a read-only register: OKAY, no state changes (R151). -/
def execBuswConfig (s : State) : Host.Outcome State Fault Refusal := respondOnly .okayWrite s

/-- BUSW.DATA, a read-only register: OKAY, the bank is unchanged (R151). -/
def execBuswData (s : State) : Host.Outcome State Fault Refusal := respondOnly .okayWrite s

/-- BUSW.RSVD (R150). -/
def execBuswRsvd (s : State) : Host.Outcome State Fault Refusal := respondErr s

/-- BUSW.MISALIGNED (R133). -/
def execBuswMisaligned (s : State) : Host.Outcome State Fault Refusal := respondErr s

/-- BUSW.BADSIZE (R132). -/
def execBuswBadsize (s : State) : Host.Outcome State Fault Refusal := respondErr s

end Sys2Proof.Machine
end

