-- ==== Sys2Proof/Machine/Mailbox.lean ====
section
/-! DEFINITION. The synchronizer's steps SYNC.SET and SYNC.REL (R116, R117), the same in both clocking modes (R118, R119). -/

namespace Sys2Proof.Machine

open Sys2Proof

/-- `sync_set()` (R116): the completion flag reaches the bus domain. -/
def syncSet (k : Block) : Block := if k.setPending then { k with ready := true, setPending := false } else k

/-- `sync_rel()` (R117): a release reaches the receiver domain. -/
def syncRel (k : Block) : Block := if k.relPending then { k with slotFull := false, relPending := false } else k

/-- SYNC.SET (R116). -/
def execSyncSet (s : State) : Host.Outcome State Fault Refusal := .next (s.setBlk (syncSet s.blk))

/-- SYNC.REL (R117). -/
def execSyncRel (s : State) : Host.Outcome State Fault Refusal := .next (s.setBlk (syncRel s.blk))

end Sys2Proof.Machine
end

