-- ==== Sys2Proof/Machine/Reset.lean ====
section
/-! DEFINITION. The reset event (R190, R191): one atomic step of both clock domains. -/

namespace Sys2Proof.Machine

open Sys2Proof

/-- RST (R190): every field of the record at its reset value. The build is fixed (R7), and the events still to come and the
count of draws belong to the outside (log entry 10). -/
def execRst (s : State) : Host.Outcome State Fault Refusal := .next (s.setBlk Block.reset)

end Sys2Proof.Machine
end

