-- ==== Sys2Proof/Machine/Dispatch.lean ====
section
/-! DEFINITION. One arm per event: the meaning it is given. -/

namespace Sys2Proof.Machine

open Sys2Proof

def exec (i : Instr) (s : State) : Host.Outcome State Fault Refusal :=
  match i with
  | .rxcNop => Sys2Proof.Machine.execRxcNop s
  | .rxcByte d _ _ => Sys2Proof.Machine.execRxcByte d s
  | .rxcEdge _ => Sys2Proof.Machine.execRxcEdge s
  | .rxcTick => Sys2Proof.Machine.execRxcTick s
  | .busrCtrl => Sys2Proof.Machine.execBusrCtrl s
  | .busrIdleThr => Sys2Proof.Machine.execBusrIdleThr s
  | .busrStatus => Sys2Proof.Machine.execBusrStatus s
  | .busrPop => Sys2Proof.Machine.execBusrPop s
  | .busrRelease => Sys2Proof.Machine.execBusrRelease s
  | .busrRxLevel => Sys2Proof.Machine.execBusrRxLevel s
  | .busrIdleCnt => Sys2Proof.Machine.execBusrIdleCnt s
  | .busrConfig => Sys2Proof.Machine.execBusrConfig s
  | .busrData k => Sys2Proof.Machine.execBusrData k s
  | .busrRsvd _ => Sys2Proof.Machine.execBusrRsvd s
  | .busrMisaligned _ => Sys2Proof.Machine.execBusrMisaligned s
  | .busrBadsize _ _ => Sys2Proof.Machine.execBusrBadsize s
  | .buswCtrl wdata => Sys2Proof.Machine.execBuswCtrl wdata s
  | .buswIdleThr wdata => Sys2Proof.Machine.execBuswIdleThr wdata s
  | .buswStatus wdata => Sys2Proof.Machine.execBuswStatus wdata s
  | .buswPop _ => Sys2Proof.Machine.execBuswPop s
  | .buswRelease wdata => Sys2Proof.Machine.execBuswRelease wdata s
  | .buswRxLevel _ => Sys2Proof.Machine.execBuswRxLevel s
  | .buswIdleCnt _ => Sys2Proof.Machine.execBuswIdleCnt s
  | .buswConfig _ => Sys2Proof.Machine.execBuswConfig s
  | .buswData _ _ => Sys2Proof.Machine.execBuswData s
  | .buswRsvd _ _ => Sys2Proof.Machine.execBuswRsvd s
  | .buswMisaligned _ _ => Sys2Proof.Machine.execBuswMisaligned s
  | .buswBadsize _ _ _ => Sys2Proof.Machine.execBuswBadsize s
  | .syncSet => Sys2Proof.Machine.execSyncSet s
  | .syncRel => Sys2Proof.Machine.execSyncRel s
  | .rst => Sys2Proof.Machine.execRst s

end Sys2Proof.Machine
end

