-- ==== Sys2Proof/Machine/Step.lean ====
section
/-! DEFINITION. One step: the event at the head of the stream, decoded and taken (R13, R83). -/

namespace Sys2Proof.Machine

open Sys2Proof

/-- One step of the machine: the next event of the stream (R13). A head that spells no event has no step (R80). -/
def step (s : State) : Host.Outcome State Fault Refusal :=
  match decode s.build s.events with
  | .ok (i, rest) => exec i (s.beginEvent rest)
  | .error e => .refused (refusalOf e)

/-- The state with a table word's event put at the head of the stream, in front of the events already there. -/
def State.withFetchWord (s : State) (nbits w : Nat) : State := { s with events := tableWords nbits w ++ s.events }

end Sys2Proof.Machine
end

