-- ==== Sys2Proof/Safety.lean ====
section
/-! DEFINITION. The vocabulary of claims: kinds of events, the block's invariant (R42 to R46), the slot's phases (R115), the source's
state machine (R19), quiescence (R202), runs of events, and the frame as the abstract accumulator of R104 sees it. -/

namespace Sys2Proof

/-! ### Kinds of events -/

/-- A receiver cycle (R71). -/
def Instr.isRxc : Instr → Bool
  | .rxcNop | .rxcByte _ _ _ | .rxcEdge _ | .rxcTick => true
  | _ => false

/-- A bus read (R72). -/
def Instr.isBusRead : Instr → Bool
  | .busrCtrl | .busrIdleThr | .busrStatus | .busrPop | .busrRelease | .busrRxLevel | .busrIdleCnt | .busrConfig
  | .busrData _ | .busrRsvd _ | .busrMisaligned _ | .busrBadsize _ _ => true
  | _ => false

/-- A bus write (R72). -/
def Instr.isBusWrite : Instr → Bool
  | .buswCtrl _ | .buswIdleThr _ | .buswStatus _ | .buswPop _ | .buswRelease _ | .buswRxLevel _ | .buswIdleCnt _
  | .buswConfig _ | .buswData _ _ | .buswRsvd _ _ | .buswMisaligned _ _ | .buswBadsize _ _ _ => true
  | _ => false

/-- A bus access the block rejects (R171). -/
def Instr.isBusError : Instr → Bool
  | .busrRsvd _ | .busrMisaligned _ | .busrBadsize _ _ | .buswRsvd _ _ | .buswMisaligned _ _ | .buswBadsize _ _ _ => true
  | _ => false

/-! ### Refused words -/

/-- R80: the words that spell no event, bit for bit as the rule's (a), (b) and (c) name them. -/
def spellsNoEvent (w : Word) : Prop :=
  4 < (w.extractLsb' 28 4).toNat ∨
  (w.extractLsb' 28 4 = 0 ∧ w.extractLsb' 11 17 ≠ 0) ∨
  ((w.extractLsb' 28 4 = 1 ∨ w.extractLsb' 28 4 = 2) ∧
    (w.extractLsb' 26 2 ≠ 0 ∨ w.extractLsb' 16 8 ≠ 0 ∨ w.extractLsb' 24 2 = 3)) ∨
  (w.extractLsb' 28 4 = 3 ∧ w.extractLsb' 1 27 ≠ 0) ∨
  (w.extractLsb' 28 4 = 4 ∧ w.extractLsb' 0 28 ≠ 0)

namespace Machine

/-! ### The invariant -/

/-- How many of the four tokens of R42 are set. -/
def tokenCount (k : Block) : Nat := k.setPending.toNat + k.ready.toNat + k.held.toNat + k.relPending.toNat

/-- What holds of the block in every reachable state (R42 to R46), with what the same rules and R29, R39, R24, R148 say of the
storage. -/
structure Block.Inv (b : Build) (k : Block) : Prop where
  /-- R42: the slot is full exactly when one of the four tokens is set -/
  slot_full : k.slotFull = (k.setPending || k.ready || k.held || k.relPending)
  /-- R42: at most one token -/
  one_token : tokenCount k ≤ 1
  /-- R43 -/
  idle_clear : k.rxs = .idle → k.wrPtr = 0 ∧ k.idleCnt = 0
  /-- R43 -/
  accum_ptr : k.rxs = .accum → 1 ≤ k.wrPtr.toNat ∧ k.wrPtr.toNat ≤ b.frameCap
  /-- R43 -/
  discard_ptr : k.rxs = .discard → k.wrPtr.toNat = b.frameCap
  /-- R43 -/
  disabled_idle : k.en = false → k.rxs = .idle
  /-- R44 -/
  below_threshold : k.rxs ≠ .idle → k.idleCnt.toNat < max k.idleThr.toNat 1
  /-- R45 -/
  bank_separate : b.buffering = .double → k.slotFull = true → k.mbBank ≠ k.accBank
  /-- R45, R39 -/
  double_clean : b.buffering = .double → k.slotDirty = false ∧ k.haz = false
  /-- R46 -/
  shared_bank : b.buffering = .shared → k.accBank = 0 ∧ k.mbBank = 0
  /-- R29 -/
  length_bounds : k.slotFull = true → 1 ≤ k.mbLen.toNat ∧ k.mbLen.toNat ≤ b.frameCap
  /-- the storage is in its canonical form -/
  storage_wf : Memory.wf k.bank
  /-- R22: the storage holds only bytes the build has -/
  storage_exists : ∀ c ∈ k.bank, ∃ bk i, bankExists b bk i = true ∧ c.1 = bankAddr bk i
  /-- R24: every byte of the frame in progress that is counted is written -/
  frame_written : k.rxs ≠ .idle → ∀ i < k.wrPtr.toNat, bankRead k k.accBank i ≠ none
  /-- R58, R148: every byte of the published frame is written -/
  slot_written : k.slotFull = true → ∀ i < k.mbLen.toNat, bankRead k k.mbBank i ≠ none

/-- The states a block of build `b` reaches from reset, under any events (R13, R14). -/
inductive Reachable (b : Build) : State → Prop where
  | reset (events : List Word) (resp : Option Response) (drawn : Nat) :
      Reachable b { blk := Block.reset, build := b, events := events, resp := resp, drawn := drawn }
  | step {s t : State} : Reachable b s → Machine.step s = .next t → Reachable b t

/-! ### The slot's phases (R115) -/

/-- The phases of the slot (R115). -/
inductive Phase where
  | empty
  | announced
  | ready
  | held
  | releasing
  deriving DecidableEq, Repr

/-- The slot is in a phase: `slot_full` and exactly the phase's token (R115). -/
def Block.inPhase (k : Block) : Phase → Bool
  | .empty => !k.slotFull && !k.setPending && !k.ready && !k.held && !k.relPending
  | .announced => k.slotFull && k.setPending && !k.ready && !k.held && !k.relPending
  | .ready => k.slotFull && !k.setPending && k.ready && !k.held && !k.relPending
  | .held => k.slotFull && !k.setPending && !k.ready && k.held && !k.relPending
  | .releasing => k.slotFull && !k.setPending && !k.ready && !k.held && k.relPending

/-- R115's table: the one event that takes a phase to the next. -/
inductive PhaseMove : Phase → Phase → Instr → Prop where
  | publish : PhaseMove .empty .announced .rxcTick
  | deliver : PhaseMove .announced .ready .syncSet
  | pop : PhaseMove .ready .held .busrPop
  | release (wdata : Word) : wdata.getLsbD 0 = true → PhaseMove .held .releasing (.buswRelease wdata)
  | free : PhaseMove .releasing .empty .syncRel

/-! ### The source's state machine (R19), quiescence (R202) -/

/-- The states of the source's machine (R19). -/
inductive SourceState where
  | idle
  | accumulating
  | frameReady
  deriving DecidableEq, Repr

/-- R19: the source's state as a projection of the block's. -/
def Block.sourceState (k : Block) : SourceState :=
  match k.rxs with
  | .idle => if k.slotFull then .frameReady else .idle
  | .accum => .accumulating
  | .discard => .accumulating

/-- A quiescent state (R202). -/
def Block.quiescent (k : Block) : Bool := k.rxs == .idle && !k.setPending && !k.relPending

/-! ### Runs of events -/

/-- A sequence of events, taken one after the other, stopping at the first fault or refusal (R13). -/
def runEvents : List Instr → State → Host.Outcome State Fault Refusal
  | [], s => .next s
  | i :: is, s =>
    match exec i s with
    | .next t => runEvents is t
    | .fault f => .fault f
    | .refused r => .refused r

/-! ### The frame in progress, abstractly (R104) -/

/-- The bytes taken since the last frame boundary, after event `i` has taken the block from `k` to `k'`: a byte delivered to an
enabled receiver joins them, and a boundary forgets them. -/
def received (acc : List Byte) (i : Instr) (k k' : Block) : List Byte :=
  if k'.rxs = .idle then []
  else
    match i with
    | .rxcByte d _ _ => if k.en then acc ++ [d] else acc
    | _ => acc

/-- The block holds the bytes `acc` of the frame in progress: none between frames, exactly those in the accumulation bank while
they fit, more than fit in DISCARD (R23, R24, R51). -/
def Block.holdsFrame (b : Build) (k : Block) (acc : List Byte) : Prop :=
  match k.rxs with
  | .idle => acc = []
  | .accum => acc.length = k.wrPtr.toNat ∧ acc.length ≤ b.frameCap ∧ ∀ i < acc.length, bankRead k k.accBank i = acc[i]?
  | .discard => b.frameCap < acc.length

end Machine

end Sys2Proof
end

