-- ==== Sys2Proof/Certificates/Slice0/Obligations.lean ====
section
/-! DEFINITION. The statements for the provers. Each docstring names the rules of spec/ it formalises; a clause that is the model's own
choice names its log entry. -/

open Sys2Proof Sys2Proof.Machine

/-! ### Encoding -/

/-- R70 to R83 by the model's own encoder: decoding the words of a well-formed event gives the event back, for every event, every
operand the encoding admits and every build. -/
def Obligations.DecodeOfEncodeIsTheEvent : Prop :=
  ∀ (b : Build) (i : Instr) (rest : List Word), i.wf b = true → decode b (encode i ++ rest) = .ok (i, rest)

/-- R79, R131: what the decoder answers is an event the build's descriptors can spell. -/
def Obligations.DecodedEventIsWellFormed : Prop :=
  ∀ (b : Build) (ws rest : List Word) (i : Instr), decode b ws = .ok (i, rest) → i.wf b = true

/-- R71, R72, R83: the words an event was decoded from are the words the encoder gives it, but for D of a receiver cycle with V = 0,
which the decoding function drops (log entry 9). -/
def Obligations.EncodeOfDecodedIsTheWord : Prop :=
  ∀ (b : Build) (w : Word) (ws rest : List Word) (i : Instr), decode b (w :: ws) = .ok (i, rest) →
    ∃ ops, ws = ops ++ rest ∧
      encode i = (if w.extractLsb' 28 4 = 0 ∧ w.getLsbD 8 = false then w &&& 0xFFFFFF00 else w) :: ops

/-- R79, R84: words written out from the spec's encodings decode to the events they stand for. -/
def Obligations.SpeltWordsDecode : Prop :=
  decode Config.resetBuild [0x0000015B] = .ok (.rxcByte 0x5B false false, []) ∧
  decode Config.resetBuild [0x00000655] = .ok (.rxcEdge true, []) ∧
  decode Config.resetBuild [0x000004AA] = .ok (.rxcTick, []) ∧
  decode Config.resetBuild [0x1200000C] = .ok (.busrPop, []) ∧
  decode Config.resetBuild [0x1200010C] = .ok (.busrData 3, []) ∧
  decode Config.resetBuild [0x12000110] = .ok (.busrRsvd 0x110, []) ∧
  decode Config.resetBuild [0x22000010, 1] = .ok (.buswRelease 1, []) ∧
  decode Config.resetBuild [0x30000001] = .ok (.syncRel, []) ∧
  decode Config.resetBuild [0x40000000] = .ok (.rst, [])

/-- R130, R131: an access is told apart by size, then alignment, then offset, and the offset of an aligned word access picks the
register; the same for reads and writes. -/
def Obligations.BusAccessIsCheckedInOrder : Prop :=
  ∀ (b : Build) (size : BitVec 2) (off : Half) (wdata : Word), size ≠ 3 →
    decode b [busWord 1 size off] = .ok
      (if size = 0 then .busrBadsize .bits8 off
       else if size = 1 then .busrBadsize .bits16 off
       else if off.toNat % 4 ≠ 0 then .busrMisaligned off
       else if off = 0x0000 then .busrCtrl
       else if off = 0x0004 then .busrIdleThr
       else if off = 0x0008 then .busrStatus
       else if off = 0x000C then .busrPop
       else if off = 0x0010 then .busrRelease
       else if off = 0x0014 then .busrRxLevel
       else if off = 0x0018 then .busrIdleCnt
       else if off = 0x001C then .busrConfig
       else if 0x100 ≤ off.toNat ∧ off.toNat < 0x100 + 4 * ((b.frameCap + 3) / 4) then .busrData ((off.toNat - 0x100) / 4)
       else .busrRsvd off, []) ∧
    decode b [busWord 2 size off, wdata] = .ok
      (if size = 0 then .buswBadsize .bits8 off wdata
       else if size = 1 then .buswBadsize .bits16 off wdata
       else if off.toNat % 4 ≠ 0 then .buswMisaligned off wdata
       else if off = 0x0000 then .buswCtrl wdata
       else if off = 0x0004 then .buswIdleThr wdata
       else if off = 0x0008 then .buswStatus wdata
       else if off = 0x000C then .buswPop wdata
       else if off = 0x0010 then .buswRelease wdata
       else if off = 0x0014 then .buswRxLevel wdata
       else if off = 0x0018 then .buswIdleCnt wdata
       else if off = 0x001C then .buswConfig wdata
       else if 0x100 ≤ off.toNat ∧ off.toNat < 0x100 + 4 * ((b.frameCap + 3) / 4) then .buswData ((off.toNat - 0x100) / 4) wdata
       else .buswRsvd off wdata, [])

/-! ### The step -/

/-- R13, R74: when the head of the stream decodes to an event, the step is that event's `exec`, with the event's words taken off the
stream and no response given yet. -/
def Obligations.StepTakesTheDecodedEvent : Prop :=
  ∀ (s : State) (i : Instr) (rest : List Word), decode s.build s.events = .ok (i, rest) →
    step s = exec i { s with events := rest, resp := none }

/-- R13, R83: when the stream begins with the words of a well-formed event, the step is that event's `exec` (log entry 3). -/
def Obligations.StepTakesTheEncodedEvent : Prop :=
  ∀ (s : State) (i : Instr) (rest : List Word), i.wf s.build = true → s.events = encode i ++ rest →
    step s = exec i { s with events := rest, resp := none }

/-- R80: the step refuses exactly the words that spell no event, when a bus write has its operand. -/
def Obligations.StepRefusesExactlyWordsOfNoEvent : Prop :=
  ∀ (s : State) (w : Word) (ws : List Word), s.events = w :: ws → (w.extractLsb' 28 4 = 2 → ws ≠ []) →
    ((∃ r, step s = .refused r) ↔ spellsNoEvent w)

/-- R7, R13 (log entries 1, 3, 6): a step that goes on keeps the build, takes one or two words off the head of the stream, and never
hands out a draw twice. -/
def Obligations.StepKeepsBuildAndTakesOneEvent : Prop :=
  ∀ s t : State, step s = .next t →
    t.build = s.build ∧ s.drawn ≤ t.drawn ∧
      ∃ taken, s.events = taken ++ t.events ∧ 1 ≤ taken.length ∧ taken.length ≤ 2

/-! ### The receiver -/

/-- R91: while `en` is false a receiver cycle changes no state, whatever its inputs. -/
def Obligations.DisabledReceiverIgnoresCycles : Prop :=
  ∀ (s : State) (i : Instr), s.blk.en = false → i.isRxc = true → exec i s = .next s

/-- R90, R103: the event of every input combination of one receiver cycle: a byte beats an edge, an edge beats a tick, and the
inputs beaten make no difference. -/
def Obligations.ActivityBeatsTheTimer : Prop :=
  (∀ (b : Build) (d : Byte) (v e t : Bool) (rest : List Word), decode b (rxcWord d v e t :: rest) =
    .ok (if v = true then .rxcByte d e t else if e = true then .rxcEdge t else if t = true then .rxcTick else .rxcNop, rest)) ∧
  ∀ (s : State) (d : Byte) (e t : Bool),
    exec (.rxcByte d e t) s = exec (.rxcByte d false false) s ∧ exec (.rxcEdge t) s = exec (.rxcEdge false) s

/-- R92: RXC.NOP, a receiver cycle with V = E = T = 0, leaves the state unchanged, in every state. -/
def Obligations.NopChangesNothing : Prop :=
  (∀ s : State, exec .rxcNop s = .next s) ∧
  ∀ (b : Build) (d : Byte) (rest : List Word), decode b (rxcWord d false false false :: rest) = .ok (.rxcNop, rest)

/-- R95: a byte in IDLE is stored at index 0 of the accumulation bank and starts a frame; every other byte of the storage and
every field not named is as before. The premise on `accBank` is R46 (without it the model stops, log entry 8). -/
def Obligations.FirstByteStartsFrame : Prop :=
  ∀ (s : State) (d : Byte) (e t : Bool), s.blk.en = true → s.blk.rxs = .idle →
    (s.build.buffering = .shared → s.blk.accBank = 0) →
    ∃ m : Memory,
      (∀ a, Memory.read m a = if a = bankAddr s.blk.accBank 0 then some d else Memory.read s.blk.bank a) ∧
      exec (.rxcByte d e t) s = .next { s with blk := { s.blk with
        bank := m, wrPtr := 1, rxs := .accum, idleCnt := 0
        slotDirty := s.blk.slotDirty || (decide (s.build.buffering = .shared) && s.blk.slotFull)
        haz := s.blk.haz || (decide (s.build.buffering = .shared) && s.blk.slotFull) } }

/-- R94: a byte in ACCUM with room is stored at index `wr_ptr` of the accumulation bank; every other byte of the storage and every
field not named is as before. -/
def Obligations.ByteWithRoomIsAppended : Prop :=
  ∀ (s : State) (d : Byte) (e t : Bool), s.blk.en = true → s.blk.rxs = .accum → s.blk.wrPtr.toNat < s.build.frameCap →
    (s.build.buffering = .shared → s.blk.accBank = 0) →
    ∃ m : Memory,
      (∀ a, Memory.read m a =
        if a = bankAddr s.blk.accBank s.blk.wrPtr.toNat then some d else Memory.read s.blk.bank a) ∧
      exec (.rxcByte d e t) s = .next { s with blk := { s.blk with
        bank := m, wrPtr := s.blk.wrPtr + 1, idleCnt := 0
        slotDirty := s.blk.slotDirty || (decide (s.build.buffering = .shared) && s.blk.slotFull)
        haz := s.blk.haz || (decide (s.build.buffering = .shared) && s.blk.slotFull) } }

/-- R96: a byte stored while the slot is occupied marks the overlap in SHARED mode, and only then; it is stored all the same. -/
def Obligations.OverlapIsMarkedWhenAByteIsStored : Prop :=
  ∀ (s : State) (d : Byte) (e x : Bool), s.blk.en = true →
    (s.blk.rxs = .idle ∨ (s.blk.rxs = .accum ∧ s.blk.wrPtr.toNat < s.build.frameCap)) →
    (s.build.buffering = .shared → s.blk.accBank = 0) →
    ∃ t, exec (.rxcByte d e x) s = .next t ∧
      bankRead t.blk s.blk.accBank (if s.blk.rxs = .idle then 0 else s.blk.wrPtr.toNat) = some d ∧
      (s.build.buffering = .shared → s.blk.slotFull = true → t.blk.slotDirty = true ∧ t.blk.haz = true) ∧
      (s.build.buffering = .double ∨ s.blk.slotFull = false →
        t.blk.slotDirty = s.blk.slotDirty ∧ t.blk.haz = s.blk.haz)

/-- R97, R172: a byte in ACCUM with the bank full rejects the frame; nothing is stored. The premise is R43's end of the range. -/
def Obligations.ByteAtFullBankOverflows : Prop :=
  ∀ (s : State) (d : Byte) (e t : Bool), s.blk.en = true → s.blk.rxs = .accum → s.blk.wrPtr.toNat = s.build.frameCap →
    exec (.rxcByte d e t) s = .next { s with blk := { s.blk with rxs := .discard, ovf := true, idleCnt := 0 } }

/-- R98: a byte in DISCARD restarts the idle interval and is dropped. -/
def Obligations.ByteInDiscardIsDropped : Prop :=
  ∀ (s : State) (d : Byte) (e t : Bool), s.blk.en = true → s.blk.rxs = .discard →
    exec (.rxcByte d e t) s = .next { s with blk := { s.blk with idleCnt := 0 } }

/-- The model's choice (log entry 8), no rule's: a byte that would be stored in a bank a SHARED build does not have stops the machine,
and no other event does. R46 says no reachable state is one. -/
def Obligations.OnlyAByteWithoutItsBankStops : Prop :=
  ∀ (s : State) (i : Instr),
    (∃ f, exec i s = .fault f) ↔
      (∃ d e t, i = .rxcByte d e t) ∧ s.blk.en = true ∧ s.build.buffering = .shared ∧ s.blk.accBank = 1 ∧
        (s.blk.rxs = .idle ∨ (s.blk.rxs = .accum ∧ s.blk.wrPtr.toNat < s.build.frameCap))

/-- R102: an edge (V = 0, E = 1) restarts the idle interval inside a frame and does nothing in IDLE; a tick of the same cycle is
lost. -/
def Obligations.EdgeRestartsTheIdleInterval : Prop :=
  (∀ (s : State) (t : Bool), s.blk.en = true →
    exec (.rxcEdge t) s = .next { s with blk := { s.blk with
      idleCnt := if s.blk.rxs = .idle then s.blk.idleCnt else 0 } }) ∧
  ∀ (b : Build) (d : Byte) (t : Bool) (rest : List Word), decode b (rxcWord d false true t :: rest) = .ok (.rxcEdge t, rest)

/-- R99, R100, R101: a tick (V = 0, E = 0, T = 1), whole: nothing in IDLE; below the threshold the count; at the threshold the frame ends, published when
it fits and the slot is empty, dropped with `mbox_ovr` when the slot is full, forgotten when it was rejected. -/
def Obligations.TickCountsOrEndsTheFrame : Prop :=
  (∀ (b : Build) (d : Byte) (rest : List Word), decode b (rxcWord d false false true :: rest) = .ok (.rxcTick, rest)) ∧
  ∀ s : State, s.blk.en = true →
    exec .rxcTick s = .next { s with
      blk :=
      if s.blk.rxs = .idle then s.blk
      else if max s.blk.idleThr.toNat 1 ≤ min (s.blk.idleCnt.toNat + 1) 0xFFFF then
        if s.blk.rxs = .accum then
          if s.blk.slotFull = false then
            { s.blk with
              rxs := .idle, wrPtr := 0, idleCnt := 0
              slotFull := true, setPending := true, mbLen := s.blk.wrPtr, mbBank := s.blk.accBank, slotDirty := false
              accBank := if s.build.buffering = .double then 1 - s.blk.accBank else s.blk.accBank }
          else { s.blk with rxs := .idle, wrPtr := 0, idleCnt := 0, mboxOvr := true }
        else { s.blk with rxs := .idle, wrPtr := 0, idleCnt := 0 }
      else { s.blk with idleCnt := s.blk.idleCnt + 1 } }

/-- R99, R194: inside a frame, a run of `n` quiet ticks only counts while the count stays below the threshold, and ends the frame
when the count reaches it. -/
def Obligations.QuietTicksEndTheFrameAtTheThreshold : Prop :=
  ∀ (n : Nat) (s : State), s.blk.en = true → s.blk.rxs ≠ .idle → s.blk.idleCnt.toNat < max s.blk.idleThr.toNat 1 →
    (s.blk.idleCnt.toNat + n < max s.blk.idleThr.toNat 1 →
      runEvents (List.replicate n .rxcTick) s =
        .next { s with blk := { s.blk with idleCnt := s.blk.idleCnt + BitVec.ofNat 16 n } }) ∧
    (s.blk.idleCnt.toNat + n = max s.blk.idleThr.toNat 1 →
      ∃ t, runEvents (List.replicate n .rxcTick) s = .next t ∧ t.blk.rxs = .idle ∧ t.blk.wrPtr = 0 ∧ t.blk.idleCnt = 0)

/-- R95, R99, R102, R137 (C6): only a byte leaves IDLE, and only a tick, a disabling CTRL write or a reset returns to it. -/
def Obligations.FramesStartAndEndOnlyByTheirEvents : Prop :=
  ∀ (s t : State) (i : Instr), exec i s = .next t →
    (s.blk.rxs = .idle → t.blk.rxs ≠ .idle → ∃ d e x, i = .rxcByte d e x) ∧
    (s.blk.rxs ≠ .idle → t.blk.rxs = .idle →
      i = .rxcTick ∨ i = .rst ∨ ∃ w : Word, i = .buswCtrl w ∧ w.getLsbD 0 = false)

/-- R105, R29: every publish is an expiry in ACCUM, of at least one byte and of the bytes counted. -/
def Obligations.NoEmptyFrameIsPublished : Prop :=
  ∀ (s t : State) (i : Instr), s.blk.Inv s.build → exec i s = .next t → s.blk.slotFull = false → t.blk.slotFull = true →
    i = .rxcTick ∧ s.blk.rxs = .accum ∧ t.blk.mbLen = s.blk.wrPtr ∧ 1 ≤ t.blk.mbLen.toNat ∧
      t.blk.mbLen.toNat ≤ s.build.frameCap

/-- R104, R51, R58: the block refines the abstract frame accumulator under every event: it goes on holding exactly the bytes taken
since the last boundary, and what it publishes is exactly those bytes, in order. -/
def Obligations.PublishedFrameIsTheBytesReceived : Prop :=
  ∀ (s t : State) (i : Instr) (acc : List Byte), s.blk.Inv s.build → s.blk.holdsFrame s.build acc → exec i s = .next t →
    t.blk.holdsFrame t.build (received acc i s.blk t.blk) ∧
    (s.blk.slotFull = false → t.blk.slotFull = true →
      t.blk.mbLen.toNat = acc.length ∧ ∀ n < acc.length, bankRead t.blk t.blk.mbBank n = acc[n]?)

/-! ### The mailbox -/

/-- R116: SYNC.SET moves the flag's token into `ready`, and with no token pending changes nothing. -/
def Obligations.SyncSetDeliversTheFlag : Prop :=
  ∀ s : State,
    (s.blk.setPending = true →
      exec .syncSet s = .next { s with blk := { s.blk with ready := true, setPending := false } }) ∧
    (s.blk.setPending = false → exec .syncSet s = .next s) ∧
    ∀ rest, decode s.build (0x30000000 :: rest) = .ok (.syncSet, rest)

/-- R117: SYNC.REL moves the release's token into `slot_full := false`, and with no token pending changes nothing. -/
def Obligations.SyncRelFreesTheSlot : Prop :=
  ∀ s : State,
    (s.blk.relPending = true →
      exec .syncRel s = .next { s with blk := { s.blk with slotFull := false, relPending := false } }) ∧
    (s.blk.relPending = false → exec .syncRel s = .next s) ∧
    ∀ rest, decode s.build (0x30000001 :: rest) = .ok (.syncRel, rest)

/-- R115: the slot is always in one phase, every event keeps it there or makes the table's one move (a reset empties it), the
table's moves are made, and POP outside `ready` and RELEASE outside `held` change nothing. -/
def Obligations.MailboxMovesOnlyThroughItsPhases : Prop :=
  ∀ (s : State) (p : Phase), s.blk.inPhase p = true →
    (∀ (i : Instr) (t : State), exec i s = .next t →
      ∃ q, t.blk.inPhase q = true ∧ (q = p ∨ PhaseMove p q i ∨ (i = .rst ∧ q = .empty))) ∧
    (∀ (i : Instr) (q : Phase), PhaseMove p q i →
      (p = .empty → s.blk.en = true ∧ s.blk.rxs = .accum ∧ max s.blk.idleThr.toNat 1 ≤ s.blk.idleCnt.toNat + 1) →
      ∃ t, exec i s = .next t ∧ t.blk.inPhase q = true) ∧
    (p ≠ .ready → exec .busrPop s = .next { s with resp := some (.okayRead 0) }) ∧
    (∀ w : Word, p ≠ .held → exec (.buswRelease w) s = .next { s with resp := some .okayWrite })

/-- R58, R59, R60, R120: while the slot stays full, no event changes the published frame's length or bank; its bytes stay as they
are unless the slot goes dirty, and in DOUBLE mode whatever happens. -/
def Obligations.PublishedFrameIsStable : Prop :=
  ∀ (s t : State) (i : Instr), s.blk.Inv s.build → exec i s = .next t → s.blk.slotFull = true → t.blk.slotFull = true →
    t.blk.mbLen = s.blk.mbLen ∧ t.blk.mbBank = s.blk.mbBank ∧
    (s.build.buffering = .double ∨ t.blk.slotDirty = false →
      ∀ n < s.build.frameCap, bankRead t.blk t.blk.mbBank n = bankRead s.blk s.blk.mbBank n)

/-! ### Bus reads -/

/-- R135, R136, R145, R149: the reads of CTRL, IDLE_THR, RELEASE and CONFIG, which change no state. -/
def Obligations.ControlRegistersRead : Prop :=
  ∀ s : State,
    exec .busrCtrl s = .next { s with resp := some (.okayRead
      (0#29 ++ BitVec.ofBool s.blk.errIe ++ BitVec.ofBool s.blk.rdyIe ++ BitVec.ofBool s.blk.en)) } ∧
    exec .busrIdleThr s = .next { s with resp := some (.okayRead (0#16 ++ s.blk.idleThr)) } ∧
    exec .busrRelease s = .next { s with resp := some (.okayRead 0x00000000) } ∧
    exec .busrConfig s = .next { s with resp := some (.okayRead
      (0#14 ++ BitVec.ofBool (s.build.clocking = .async) ++ BitVec.ofBool (s.build.buffering = .double) ++
        BitVec.ofNat 16 s.build.frameCap)) } ∧
    ∀ rest,
      decode s.build (0x12000000 :: rest) = .ok (.busrCtrl, rest) ∧
      decode s.build (0x12000004 :: rest) = .ok (.busrIdleThr, rest) ∧
      decode s.build (0x12000010 :: rest) = .ok (.busrRelease, rest) ∧
      decode s.build (0x1200001C :: rest) = .ok (.busrConfig, rest)

/-- R141, with R41's irq and R138's RXS: the read of STATUS, bit for bit, which changes no state of the block; RXS is the current
value on one clock and a draw handed out by this read in ASYNC mode (a draw is a `Config.draw`, log entry 6). -/
def Obligations.StatusRead : Prop :=
  ∀ s : State, ∃ (rx : BitVec 2) (n : Nat),
    exec .busrStatus s = .next { s with
      resp := some (.okayRead (0#24 ++
        BitVec.ofBool ((s.blk.ready && s.blk.rdyIe) || ((s.blk.ovf || s.blk.mboxOvr || s.blk.haz) && s.blk.errIe)) ++
        rx ++ BitVec.ofBool s.blk.haz ++ BitVec.ofBool s.blk.mboxOvr ++ BitVec.ofBool s.blk.ovf ++
        BitVec.ofBool s.blk.held ++ BitVec.ofBool s.blk.ready))
      drawn := n } ∧
    (s.build.clocking = .sameClock →
      (s.blk.rxs = .idle → rx = 0) ∧ (s.blk.rxs = .accum → rx = 1) ∧ (s.blk.rxs = .discard → rx = 2)) ∧
    (s.build.clocking = .async → ∃ m, s.drawn ≤ m ∧ m < n ∧ rx = Config.draw 2 m) ∧
    ∀ rest, decode s.build (0x12000008 :: rest) = .ok (.busrStatus, rest)

/-- R140, R147, with R138's draws: the reads of RX_LEVEL and IDLE_CNT, which change no state of the block; in ASYNC mode the field is
a draw handed out by this read (a draw is a `Config.draw`, log entry 6). -/
def Obligations.LevelAndCountRead : Prop :=
  ∀ s : State,
    (∃ (level : BitVec 16) (n : Nat),
      exec .busrRxLevel s = .next { s with resp := some (.okayRead (0#16 ++ level)), drawn := n } ∧
      (s.build.clocking = .sameClock → level = s.blk.wrPtr) ∧
      (s.build.clocking = .async → ∃ m, s.drawn ≤ m ∧ m < n ∧ level = Config.draw 16 m)) ∧
    (∃ (cnt : BitVec 16) (n : Nat),
      exec .busrIdleCnt s = .next { s with resp := some (.okayRead (0#16 ++ cnt)), drawn := n } ∧
      (s.build.clocking = .sameClock → cnt = s.blk.idleCnt) ∧
      (s.build.clocking = .async → ∃ m, s.drawn ≤ m ∧ m < n ∧ cnt = Config.draw 16 m)) ∧
    ∀ rest,
      decode s.build (0x12000014 :: rest) = .ok (.busrRxLevel, rest) ∧
      decode s.build (0x12000018 :: rest) = .ok (.busrIdleCnt, rest)

/-- R138, R119, R184, given the same draws (log entry 6): in ASYNC mode no bus read tells anything of `rxs`, `wr_ptr` or `idle_cnt`. The
two reads are compared at the same count of draws, and the model's choice of log entry 6 then gives both the same ones; R15 does not:
it says that two draws are unrelated. -/
def Obligations.AsyncReadsHideTheReceiver : Prop :=
  ∀ (s t u : State) (i : Instr) (r : Rxs) (p c : Half), s.build.clocking = .async → i.isBusRead = true →
    exec i s = .next t → exec i { s with blk := { s.blk with rxs := r, wrPtr := p, idleCnt := c } } = .next u →
    u.resp = t.resp

/-- R49, given the same draws (log entry 6): no bus read tells anything of the storage but the bytes of the mailbox bank below
`mb_len`. The two reads are compared at the same count of draws, and the model's choice of log entry 6 then gives the lanes that are
draws the same ones; R15 does not: it says that two draws are unrelated. -/
def Obligations.BusSeesOnlyTheMailboxBank : Prop :=
  ∀ (s t u : State) (i : Instr) (m : Memory), i.isBusRead = true →
    (∀ n < s.blk.mbLen.toNat, Memory.read m (bankAddr s.blk.mbBank n) = bankRead s.blk s.blk.mbBank n) →
    exec i s = .next t → exec i { s with blk := { s.blk with bank := m } } = .next u →
    u.resp = t.resp

/-- R143: POP, the atomic read-and-clear. -/
def Obligations.PopTakesTheFrame : Prop :=
  ∀ s : State,
    (s.blk.ready = true →
      exec .busrPop s = .next { s with
        blk := { s.blk with ready := false, held := true }
        resp := some (.okayRead (1#1 ++ 0#15 ++ s.blk.mbLen)) }) ∧
    (s.blk.ready = false → exec .busrPop s = .next { s with resp := some (.okayRead 0x00000000) }) ∧
    ∀ rest, decode s.build (0x1200000C :: rest) = .ok (.busrPop, rest)

/-- R57, R143: of two POPs in a row the second takes nothing, whatever the first did. -/
def Obligations.SecondPopTakesNothing : Prop :=
  ∀ s t : State, exec .busrPop s = .next t → exec .busrPop t = .next { t with resp := some (.okayRead 0x00000000) }

/-- R148, with R53's lanes: a data word, lane by lane: byte `4n + j` of the mailbox bank in lane `j` where the frame has it, and
everywhere else a draw of its own, handed out by this read (a draw is a `Config.draw`, log entry 6); no state of the block changes.
The word's offset is `0x100 + 4n`, `n < NW`. -/
def Obligations.DataWindowRead : Prop :=
  ∀ (s : State) (n : Nat), ∃ (w : Word) (d : Nat) (m : Nat → Nat),
    (n < (s.build.frameCap + 3) / 4 → ∀ rest,
      decode s.build (busWord 1 2 (BitVec.ofNat 16 (0x100 + 4 * n)) :: rest) = .ok (.busrData n, rest)) ∧
    exec (.busrData n) s = .next { s with resp := some (.okayRead w), drawn := d } ∧
    (∀ i < 4, ∀ j < 4, m i = m j → i = j) ∧ (∀ j < 4, s.drawn ≤ m j ∧ m j < d) ∧
    ∀ j < 4,
      (∀ v, (s.blk.ready = true ∨ s.blk.held = true) → s.blk.slotDirty = false → 4 * n + j < s.blk.mbLen.toNat →
        bankRead s.blk s.blk.mbBank (4 * n + j) = some v → w.extractLsb' (8 * j) 8 = v) ∧
      (¬(s.blk.ready = true ∨ s.blk.held = true) ∨ s.blk.slotDirty = true ∨ ¬4 * n + j < s.blk.mbLen.toNat ∨
          bankRead s.blk s.blk.mbBank (4 * n + j) = none →
        w.extractLsb' (8 * j) 8 = Config.draw 8 (m j))

/-- The model's choice (log entry 6), no rule's: which numbers the draws of R15 carry. A DATA read hands out four, a diagnostic read in
ASYNC mode one, every other event none; a draw is named by its width and by the count before it. -/
def Obligations.DrawsAreNumberedInOrder : Prop :=
  ∀ (s t : State) (i : Instr), exec i s = .next t →
    (∀ n, i = .busrData n → t.drawn = s.drawn + 4) ∧
    (s.build.clocking = .async → i = .busrStatus ∨ i = .busrRxLevel ∨ i = .busrIdleCnt → t.drawn = s.drawn + 1) ∧
    ((∀ n, i ≠ .busrData n) → ¬(s.build.clocking = .async ∧ (i = .busrStatus ∨ i = .busrRxLevel ∨ i = .busrIdleCnt)) →
      t.drawn = s.drawn) ∧
    (s.build.clocking = .async →
      (i = .busrRxLevel ∨ i = .busrIdleCnt → t.resp = some (.okayRead (0#16 ++ Config.draw 16 s.drawn))) ∧
      (i = .busrStatus → ∀ w, t.resp = some (.okayRead w) → w.extractLsb' 5 2 = Config.draw 2 s.drawn)) ∧
    (s.blk.ready = false → s.blk.held = false → ∀ n, i = .busrData n →
      t.resp = some (.okayRead (Config.draw 8 (s.drawn + 3) ++ Config.draw 8 (s.drawn + 2) ++ Config.draw 8 (s.drawn + 1) ++
        Config.draw 8 s.drawn)))

/-- R59, R148: in a state that meets the invariant, every byte of a clean frame that is ready or held reads as a byte of the bank,
never as a draw. -/
def Obligations.FrameBytesAreDefined : Prop :=
  ∀ (s : State) (n j : Nat), s.blk.Inv s.build → (s.blk.ready = true ∨ s.blk.held = true) → s.blk.slotDirty = false → j < 4 →
    4 * n + j < s.blk.mbLen.toNat →
    ∃ w v d, exec (.busrData n) s = .next { s with resp := some (.okayRead w), drawn := d } ∧
      bankRead s.blk s.blk.mbBank (4 * n + j) = some v ∧ w.extractLsb' (8 * j) 8 = v

/-- R57: every bus read completes, and POP of a ready frame is the only one that changes the block. -/
def Obligations.OnlyPopReadHasASideEffect : Prop :=
  ∀ (s : State) (i : Instr), i.isBusRead = true →
    ∃ t, exec i s = .next t ∧ (t.blk = s.blk ∨ (i = .busrPop ∧ s.blk.ready = true))

/-- R132, R133, R150: the accesses the block rejects get ERR and change nothing: those of a narrow size, the misaligned ones, and
those to an offset that names no register. -/
def Obligations.RejectedAccessesChangeNothing : Prop :=
  ∀ (s : State) (size : NarrowSize) (off : Half) (wdata : Word) (rest : List Word),
    (exec (.busrBadsize size off) s = .next { s with resp := some .err } ∧
      exec (.buswBadsize size off wdata) s = .next { s with resp := some .err } ∧
      decode s.build (busWord 1 (narrowBits size) off :: rest) = .ok (.busrBadsize size off, rest) ∧
      decode s.build (busWord 2 (narrowBits size) off :: wdata :: rest) = .ok (.buswBadsize size off wdata, rest)) ∧
    (exec (.busrMisaligned off) s = .next { s with resp := some .err } ∧
      exec (.buswMisaligned off wdata) s = .next { s with resp := some .err } ∧
      (off.toNat % 4 ≠ 0 →
        decode s.build (busWord 1 2 off :: rest) = .ok (.busrMisaligned off, rest) ∧
        decode s.build (busWord 2 2 off :: wdata :: rest) = .ok (.buswMisaligned off wdata, rest))) ∧
    (exec (.busrRsvd off) s = .next { s with resp := some .err } ∧
      exec (.buswRsvd off wdata) s = .next { s with resp := some .err } ∧
      (off.toNat % 4 = 0 → (0x20 ≤ off.toNat ∧ off.toNat ≤ 0xFC) ∨ 0x100 + 4 * ((s.build.frameCap + 3) / 4) ≤ off.toNat →
        decode s.build (busWord 1 2 off :: rest) = .ok (.busrRsvd off, rest) ∧
        decode s.build (busWord 2 2 off :: wdata :: rest) = .ok (.buswRsvd off wdata, rest)))

/-- R74: a bus event ends with exactly one response, OKAY with data for a read that is carried out, OKAY for a write that is, ERR with no state
changed for an access the block rejects; no other event gives one. -/
def Obligations.EveryBusEventGivesOneResponse : Prop :=
  ∀ (s t : State) (i : Instr), s.resp = none → exec i s = .next t →
    (t.resp = none ↔ i.isBusRead = false ∧ i.isBusWrite = false) ∧
    (t.resp = some .err ↔ i.isBusError = true) ∧
    (i.isBusError = true → t = { s with resp := some .err }) ∧
    ((∃ w, t.resp = some (.okayRead w)) ↔ i.isBusRead = true ∧ i.isBusError = false) ∧
    (t.resp = some .okayWrite ↔ i.isBusWrite = true ∧ i.isBusError = false)

/-! ### Bus writes -/

/-- R137: the write of CTRL; a disable aborts the frame in progress and touches nothing of the slot or the flags. -/
def Obligations.CtrlWrite : Prop :=
  ∀ (s : State) (w : Word),
    exec (.buswCtrl w) s = .next { s with
      blk := { s.blk with
        rxs := if s.blk.en = true ∧ w.getLsbD 0 = false then .idle else s.blk.rxs
        wrPtr := if s.blk.en = true ∧ w.getLsbD 0 = false then 0 else s.blk.wrPtr
        idleCnt := if s.blk.en = true ∧ w.getLsbD 0 = false then 0 else s.blk.idleCnt
        en := w.getLsbD 0, rdyIe := w.getLsbD 1, errIe := w.getLsbD 2 }
      resp := some .okayWrite } ∧
    ∀ rest, decode s.build (0x22000000 :: w :: rest) = .ok (.buswCtrl w, rest)

/-- R139: the write of IDLE_THR, ignored while EN = 1. -/
def Obligations.IdleThrWrite : Prop :=
  ∀ (s : State) (w : Word),
    (s.blk.en = false → exec (.buswIdleThr w) s = .next { s with
      blk := { s.blk with idleThr := w.extractLsb' 0 16 }, resp := some .okayWrite }) ∧
    (s.blk.en = true → exec (.buswIdleThr w) s = .next { s with resp := some .okayWrite }) ∧
    ∀ rest, decode s.build (0x22000004 :: w :: rest) = .ok (.buswIdleThr w, rest)

/-- R142: the write of STATUS clears the flags whose bit is 1 and nothing else. -/
def Obligations.StatusWriteClears : Prop :=
  ∀ (s : State) (w : Word),
    exec (.buswStatus w) s = .next { s with
      blk := { s.blk with
        ovf := if w.getLsbD 2 = true then false else s.blk.ovf
        mboxOvr := if w.getLsbD 3 = true then false else s.blk.mboxOvr
        haz := if w.getLsbD 4 = true then false else s.blk.haz }
      resp := some .okayWrite } ∧
    ∀ rest, decode s.build (0x22000008 :: w :: rest) = .ok (.buswStatus w, rest)

/-- R146: the write of RELEASE hands a held slot back, and is ignored otherwise. -/
def Obligations.ReleaseWrite : Prop :=
  ∀ (s : State) (w : Word),
    (w.getLsbD 0 = true → s.blk.held = true → exec (.buswRelease w) s = .next { s with
      blk := { s.blk with held := false, relPending := true }, resp := some .okayWrite }) ∧
    (w.getLsbD 0 = false ∨ s.blk.held = false → exec (.buswRelease w) s = .next { s with resp := some .okayWrite }) ∧
    ∀ rest, decode s.build (0x22000010 :: w :: rest) = .ok (.buswRelease w, rest)

/-- R144, R151: a write to a read-only register gets OKAY and changes nothing. -/
def Obligations.ReadOnlyWritesAreIgnored : Prop :=
  ∀ (s : State) (n : Nat) (w : Word),
    exec (.buswPop w) s = .next { s with resp := some .okayWrite } ∧
    exec (.buswRxLevel w) s = .next { s with resp := some .okayWrite } ∧
    exec (.buswIdleCnt w) s = .next { s with resp := some .okayWrite } ∧
    exec (.buswConfig w) s = .next { s with resp := some .okayWrite } ∧
    exec (.buswData n w) s = .next { s with resp := some .okayWrite } ∧
    ∀ rest,
      decode s.build (0x2200000C :: w :: rest) = .ok (.buswPop w, rest) ∧
      decode s.build (0x22000014 :: w :: rest) = .ok (.buswRxLevel w, rest) ∧
      decode s.build (0x22000018 :: w :: rest) = .ok (.buswIdleCnt w, rest) ∧
      decode s.build (0x2200001C :: w :: rest) = .ok (.buswConfig w, rest) ∧
      (n < (s.build.frameCap + 3) / 4 →
        decode s.build (busWord 2 2 (BitVec.ofNat 16 (0x100 + 4 * n)) :: w :: rest) = .ok (.buswData n w, rest))

/-! ### Reset -/

/-- R190: RST, the word 0x40000000, gives every field of the record its reset value, from any state. -/
def Obligations.ResetEvent : Prop :=
  (∀ s : State, ∃ t, exec .rst s = .next t ∧ t.build = s.build ∧ t.blk =
    { rxs := .idle, wrPtr := 0, idleCnt := 0, accBank := 0, bank := [], mbBank := 0, mbLen := 0, slotDirty := false
      slotFull := false, setPending := false, relPending := false, ready := false, held := false
      en := false, rdyIe := false, errIe := false, idleThr := 0xFFFF, ovf := false, mboxOvr := false, haz := false }) ∧
  ∀ (b : Build) (rest : List Word), decode b (0x40000000 :: rest) = .ok (.rst, rest)

/-- The model's choice (log entry 10), no rule's: RST leaves the events still to come, the response and the count of draws alone. -/
def Obligations.ResetKeepsTheModelsFields : Prop :=
  ∀ s t : State, exec .rst s = .next t → t.events = s.events ∧ t.resp = s.resp ∧ t.drawn = s.drawn

/-- R22, R190: the machine's reset state has those values too, with every bank byte unwritten. -/
def Obligations.ResetStateHasTheResetValues : Prop :=
  State.reset.blk =
    { rxs := .idle, wrPtr := 0, idleCnt := 0, accBank := 0, bank := [], mbBank := 0, mbLen := 0, slotDirty := false
      slotFull := false, setPending := false, relPending := false, ready := false, held := false
      en := false, rdyIe := false, errIe := false, idleThr := 0xFFFF, ovf := false, mboxOvr := false, haz := false } ∧
  ∀ bk i, bankRead State.reset.blk bk i = none

/-- R48, R190: what the registers read straight after a reset, from any state. -/
def Obligations.RegistersAfterReset : Prop :=
  ∀ s t : State, exec .rst s = .next t →
    exec .busrCtrl t = .next { t with resp := some (.okayRead 0x00000000) } ∧
    exec .busrIdleThr t = .next { t with resp := some (.okayRead 0x0000FFFF) } ∧
    exec .busrPop t = .next { t with resp := some (.okayRead 0x00000000) } ∧
    (s.build.clocking = .sameClock →
      exec .busrStatus t = .next { t with resp := some (.okayRead 0x00000000) } ∧
      exec .busrRxLevel t = .next { t with resp := some (.okayRead 0x00000000) } ∧
      exec .busrIdleCnt t = .next { t with resp := some (.okayRead 0x00000000) })

/-! ### The whole machine -/

/-- R42 to R46, with R24, R29, R39 and R148: every step keeps the block's invariant. -/
def Obligations.EveryStepKeepsTheInvariant : Prop :=
  ∀ s t : State, s.blk.Inv s.build → step s = .next t → t.blk.Inv t.build

/-- R190: the reset record meets the invariant, on every build; so does the machine's reset state. -/
def Obligations.ResetMeetsTheInvariant : Prop :=
  (∀ b : Build, Block.reset.Inv b) ∧ State.reset.blk.Inv State.reset.build

/-- R42, R43, R44, R45, R46: the invariants as the spec states them, in every state any build reaches under any events; no step lemma
but the corollary of `EveryStepKeepsTheInvariant` and `ResetMeetsTheInvariant`. -/
def Obligations.ReachableStatesMeetTheSpecInvariants : Prop :=
  ∀ (b : Build) (s : State), Reachable b s →
    (s.blk.slotFull = true ↔
      s.blk.setPending = true ∨ s.blk.ready = true ∨ s.blk.held = true ∨ s.blk.relPending = true) ∧
    tokenCount s.blk ≤ 1 ∧ ¬(s.blk.ready = true ∧ s.blk.held = true) ∧
    (s.blk.rxs = .idle → s.blk.wrPtr = 0 ∧ s.blk.idleCnt = 0) ∧
    (s.blk.rxs = .accum → 1 ≤ s.blk.wrPtr.toNat ∧ s.blk.wrPtr.toNat ≤ b.frameCap) ∧
    (s.blk.rxs = .discard → s.blk.wrPtr.toNat = b.frameCap) ∧
    (s.blk.en = false → s.blk.rxs = .idle) ∧
    (s.blk.rxs ≠ .idle → s.blk.idleCnt.toNat < max s.blk.idleThr.toNat 1 ∧ s.blk.idleCnt.toNat ≤ 0xFFFE) ∧
    (b.buffering = .double → (s.blk.slotFull = true → s.blk.mbBank ≠ s.blk.accBank) ∧ s.blk.slotDirty = false) ∧
    (b.buffering = .shared → s.blk.accBank = 0 ∧ s.blk.mbBank = 0)

/-- No event stops the machine in a state that meets the invariant: each answers a next state (R46 and the rule of each event). -/
def Obligations.EveryEventCompletes : Prop :=
  ∀ (s : State) (i : Instr), s.blk.Inv s.build → ∃ t, exec i s = .next t

/-- R202, R42, R19: in a quiescent state the slot is empty, ready or held: a ready frame is the one frame waiting, an empty slot has
none, and the source's machine is in Idle or FrameReady by the slot alone. -/
def Obligations.QuiescentStatesHoldAtMostOneFrame : Prop :=
  ∀ (b : Build) (k : Block), k.Inv b → k.quiescent = true →
    (k.ready = true → k.inPhase .ready = true) ∧ (k.slotFull = false → k.inPhase .empty = true) ∧
    (k.slotFull = true → k.inPhase .ready = true ∨ k.inPhase .held = true) ∧
    k.sourceState = (if k.slotFull = true then .frameReady else .idle)

/-- R22: each field changes only under the events its row names as its writers, or a reset. -/
def Obligations.FieldsChangeOnlyByTheirWriters : Prop :=
  ∀ (s t : State) (i : Instr), exec i s = .next t → i ≠ .rst →
    ((∀ w, i ≠ .buswCtrl w) → t.blk.en = s.blk.en ∧ t.blk.rdyIe = s.blk.rdyIe ∧ t.blk.errIe = s.blk.errIe) ∧
    ((∀ w, i ≠ .buswCtrl w) → i.isRxc = false →
      t.blk.rxs = s.blk.rxs ∧ t.blk.wrPtr = s.blk.wrPtr ∧ t.blk.idleCnt = s.blk.idleCnt) ∧
    (i ≠ .rxcTick → t.blk.accBank = s.blk.accBank ∧ t.blk.mbBank = s.blk.mbBank ∧ t.blk.mbLen = s.blk.mbLen) ∧
    ((∀ d e x, i ≠ .rxcByte d e x) → t.blk.bank = s.blk.bank ∧ (i ≠ .rxcTick → t.blk.slotDirty = s.blk.slotDirty)) ∧
    (i ≠ .rxcTick → i ≠ .syncRel → t.blk.slotFull = s.blk.slotFull) ∧
    (i ≠ .rxcTick → i ≠ .syncSet → t.blk.setPending = s.blk.setPending) ∧
    (i ≠ .syncRel → (∀ w, i ≠ .buswRelease w) → t.blk.relPending = s.blk.relPending) ∧
    (i ≠ .syncSet → i ≠ .busrPop → t.blk.ready = s.blk.ready) ∧
    (i ≠ .busrPop → (∀ w, i ≠ .buswRelease w) → t.blk.held = s.blk.held) ∧
    ((∀ w, i ≠ .buswIdleThr w) ∨ s.blk.en = true → t.blk.idleThr = s.blk.idleThr) ∧
    ((∀ w, i ≠ .buswStatus w) → (∀ d e x, i ≠ .rxcByte d e x) → t.blk.ovf = s.blk.ovf ∧ t.blk.haz = s.blk.haz) ∧
    ((∀ w, i ≠ .buswStatus w) → i ≠ .rxcTick → t.blk.mboxOvr = s.blk.mboxOvr)

/-- R47, R37, R38, R39, R172 to R174, R178: the error flags are set only by their causes and cleared only by their own write-1 bit
or a reset. -/
def Obligations.StickyFlagsFollowTheirCauses : Prop :=
  ∀ (s t : State) (i : Instr), exec i s = .next t →
    (s.blk.ovf = false → t.blk.ovf = true →
      (∃ d e x, i = .rxcByte d e x) ∧ s.blk.rxs = .accum ∧ s.build.frameCap ≤ s.blk.wrPtr.toNat) ∧
    (s.blk.ovf = true → t.blk.ovf = false → i = .rst ∨ ∃ w : Word, i = .buswStatus w ∧ w.getLsbD 2 = true) ∧
    (s.blk.mboxOvr = false → t.blk.mboxOvr = true → i = .rxcTick ∧ s.blk.rxs = .accum ∧ s.blk.slotFull = true) ∧
    (s.blk.mboxOvr = true → t.blk.mboxOvr = false → i = .rst ∨ ∃ w : Word, i = .buswStatus w ∧ w.getLsbD 3 = true) ∧
    (s.blk.haz = false → t.blk.haz = true →
      (∃ d e x, i = .rxcByte d e x) ∧ s.build.buffering = .shared ∧ s.blk.slotFull = true) ∧
    (s.blk.haz = true → t.blk.haz = false → i = .rst ∨ ∃ w : Word, i = .buswStatus w ∧ w.getLsbD 4 = true)
end

