-- ==== Sys2Proof/Laws/State.lean ====
section
/-! SUPPORT. The field lemmas of the state's updates, each true by `rfl`. -/

namespace Sys2Proof.Machine

section
variable (s : State) (k : Block) (r : Response) (n : Nat) (ws : List Word)

@[simp] theorem State.setBlk_blk : (s.setBlk k).blk = k := rfl
@[simp] theorem State.setBlk_build : (s.setBlk k).build = s.build := rfl
@[simp] theorem State.setBlk_events : (s.setBlk k).events = s.events := rfl
@[simp] theorem State.setBlk_resp : (s.setBlk k).resp = s.resp := rfl
@[simp] theorem State.setBlk_drawn : (s.setBlk k).drawn = s.drawn := rfl

@[simp] theorem State.respond_blk : (s.respond r).blk = s.blk := rfl
@[simp] theorem State.respond_build : (s.respond r).build = s.build := rfl
@[simp] theorem State.respond_events : (s.respond r).events = s.events := rfl
@[simp] theorem State.respond_resp : (s.respond r).resp = some r := rfl
@[simp] theorem State.respond_drawn : (s.respond r).drawn = s.drawn := rfl

@[simp] theorem State.spend_blk : (s.spend n).blk = s.blk := rfl
@[simp] theorem State.spend_build : (s.spend n).build = s.build := rfl
@[simp] theorem State.spend_events : (s.spend n).events = s.events := rfl
@[simp] theorem State.spend_resp : (s.spend n).resp = s.resp := rfl
@[simp] theorem State.spend_drawn : (s.spend n).drawn = s.drawn + n := rfl

@[simp] theorem State.beginEvent_blk : (s.beginEvent ws).blk = s.blk := rfl
@[simp] theorem State.beginEvent_build : (s.beginEvent ws).build = s.build := rfl
@[simp] theorem State.beginEvent_events : (s.beginEvent ws).events = ws := rfl
@[simp] theorem State.beginEvent_resp : (s.beginEvent ws).resp = none := rfl
@[simp] theorem State.beginEvent_drawn : (s.beginEvent ws).drawn = s.drawn := rfl

@[simp] theorem State.setBlk_self : s.setBlk s.blk = s := rfl

end

section
variable (k : Block)

@[simp] theorem frameBoundary_rxs : (frameBoundary k).rxs = .idle := rfl
@[simp] theorem frameBoundary_wrPtr : (frameBoundary k).wrPtr = 0 := rfl
@[simp] theorem frameBoundary_idleCnt : (frameBoundary k).idleCnt = 0 := rfl
@[simp] theorem frameBoundary_accBank : (frameBoundary k).accBank = k.accBank := rfl
@[simp] theorem frameBoundary_bank : (frameBoundary k).bank = k.bank := rfl
@[simp] theorem frameBoundary_mbBank : (frameBoundary k).mbBank = k.mbBank := rfl
@[simp] theorem frameBoundary_mbLen : (frameBoundary k).mbLen = k.mbLen := rfl
@[simp] theorem frameBoundary_slotDirty : (frameBoundary k).slotDirty = k.slotDirty := rfl
@[simp] theorem frameBoundary_slotFull : (frameBoundary k).slotFull = k.slotFull := rfl
@[simp] theorem frameBoundary_setPending : (frameBoundary k).setPending = k.setPending := rfl
@[simp] theorem frameBoundary_relPending : (frameBoundary k).relPending = k.relPending := rfl
@[simp] theorem frameBoundary_ready : (frameBoundary k).ready = k.ready := rfl
@[simp] theorem frameBoundary_held : (frameBoundary k).held = k.held := rfl
@[simp] theorem frameBoundary_en : (frameBoundary k).en = k.en := rfl
@[simp] theorem frameBoundary_rdyIe : (frameBoundary k).rdyIe = k.rdyIe := rfl
@[simp] theorem frameBoundary_errIe : (frameBoundary k).errIe = k.errIe := rfl
@[simp] theorem frameBoundary_idleThr : (frameBoundary k).idleThr = k.idleThr := rfl
@[simp] theorem frameBoundary_ovf : (frameBoundary k).ovf = k.ovf := rfl
@[simp] theorem frameBoundary_mboxOvr : (frameBoundary k).mboxOvr = k.mboxOvr := rfl
@[simp] theorem frameBoundary_haz : (frameBoundary k).haz = k.haz := rfl

end

/-! `markOverlap` writes `slot_dirty` and `haz`, nothing else. -/

section
variable (b : Build) (k : Block)

@[simp] theorem markOverlap_rxs : (markOverlap b k).rxs = k.rxs := by unfold markOverlap; split <;> rfl
@[simp] theorem markOverlap_wrPtr : (markOverlap b k).wrPtr = k.wrPtr := by unfold markOverlap; split <;> rfl
@[simp] theorem markOverlap_idleCnt : (markOverlap b k).idleCnt = k.idleCnt := by unfold markOverlap; split <;> rfl
@[simp] theorem markOverlap_accBank : (markOverlap b k).accBank = k.accBank := by unfold markOverlap; split <;> rfl
@[simp] theorem markOverlap_bank : (markOverlap b k).bank = k.bank := by unfold markOverlap; split <;> rfl
@[simp] theorem markOverlap_mbBank : (markOverlap b k).mbBank = k.mbBank := by unfold markOverlap; split <;> rfl
@[simp] theorem markOverlap_mbLen : (markOverlap b k).mbLen = k.mbLen := by unfold markOverlap; split <;> rfl
@[simp] theorem markOverlap_slotFull : (markOverlap b k).slotFull = k.slotFull := by unfold markOverlap; split <;> rfl
@[simp] theorem markOverlap_setPending : (markOverlap b k).setPending = k.setPending := by unfold markOverlap; split <;> rfl
@[simp] theorem markOverlap_relPending : (markOverlap b k).relPending = k.relPending := by unfold markOverlap; split <;> rfl
@[simp] theorem markOverlap_ready : (markOverlap b k).ready = k.ready := by unfold markOverlap; split <;> rfl
@[simp] theorem markOverlap_held : (markOverlap b k).held = k.held := by unfold markOverlap; split <;> rfl
@[simp] theorem markOverlap_en : (markOverlap b k).en = k.en := by unfold markOverlap; split <;> rfl
@[simp] theorem markOverlap_rdyIe : (markOverlap b k).rdyIe = k.rdyIe := by unfold markOverlap; split <;> rfl
@[simp] theorem markOverlap_errIe : (markOverlap b k).errIe = k.errIe := by unfold markOverlap; split <;> rfl
@[simp] theorem markOverlap_idleThr : (markOverlap b k).idleThr = k.idleThr := by unfold markOverlap; split <;> rfl
@[simp] theorem markOverlap_ovf : (markOverlap b k).ovf = k.ovf := by unfold markOverlap; split <;> rfl
@[simp] theorem markOverlap_mboxOvr : (markOverlap b k).mboxOvr = k.mboxOvr := by unfold markOverlap; split <;> rfl

@[simp] theorem markOverlap_slotDirty :
    (markOverlap b k).slotDirty = (k.slotDirty || (decide (b.buffering = .shared) && k.slotFull)) := by
  unfold markOverlap; split <;> simp_all

@[simp] theorem markOverlap_haz :
    (markOverlap b k).haz = (k.haz || (decide (b.buffering = .shared) && k.slotFull)) := by
  unfold markOverlap; split <;> simp_all

end

end Sys2Proof.Machine
end

