-- ==== Sys2Proof/Laws/Memory.lean ====
section
/-! SUPPORT. The laws of the storage: read after write, the canonical form, what a write adds, and where a bank's bytes lie. -/

namespace Sys2Proof.Machine

/-- Read after write: the byte written at its address, every other address as before. -/
theorem Memory.read_write (m : Memory) (a : Nat) (v : Byte) (x : Nat) :
    Memory.read (Memory.write m a v) x = if x = a then some v else Memory.read m x := by
  induction m with
  | nil => simp only [Memory.write, Memory.read, eq_comm]
  | cons c m ih =>
    obtain ⟨c, u⟩ := c
    by_cases h1 : a < c
    · simp only [Memory.write, h1, if_true, Memory.read, eq_comm]
    · by_cases h2 : a = c
      · subst h2
        by_cases h3 : x = a <;> simp [Memory.write, Memory.read, h3, Ne.symm]
      · by_cases h3 : c = x
        · subst h3; simp [Memory.write, h1, h2, Memory.read, Ne.symm h2]
        · simp [Memory.write, h1, h2, Memory.read, h3, ih]

/-- A write adds at most the cell written. -/
theorem Memory.mem_write {m : Memory} {a : Nat} {v : Byte} {c : Host.Cell} (h : c ∈ Memory.write m a v) :
    c = (a, v) ∨ c ∈ m := by
  induction m with
  | nil => simpa [Memory.write] using h
  | cons d m ih =>
    obtain ⟨d, u⟩ := d
    simp only [Memory.write] at h
    split at h
    · simpa using h
    · split at h
      · rcases List.mem_cons.mp h with h | h <;> simp [h]
      · rcases List.mem_cons.mp h with h | h
        · simp [h]
        · rcases ih h with h | h <;> simp [h]

/-- A write keeps the canonical form. -/
theorem Memory.write_wf {m : Memory} (h : Memory.wf m) (a : Nat) (v : Byte) : Memory.wf (Memory.write m a v) := by
  induction m with
  | nil => simp [Memory.write]
  | cons c m ih =>
    obtain ⟨c, u⟩ := c
    obtain ⟨hc, hm⟩ := List.pairwise_cons.mp h
    simp only [Memory.write]
    split
    · rename_i lt
      refine List.pairwise_cons.mpr ⟨fun d hd => ?_, h⟩
      rcases List.mem_cons.mp hd with rfl | hd
      · exact lt
      · exact lt.trans (hc d hd)
    · split
      · rename_i eq; subst eq; exact List.pairwise_cons.mpr ⟨fun d hd => hc d hd, hm⟩
      · rename_i nlt ne
        refine List.pairwise_cons.mpr ⟨fun d hd => ?_, ih hm⟩
        rcases Memory.mem_write hd with rfl | hd
        · exact lt_of_le_of_ne (not_lt.mp nlt) (Ne.symm ne)
        · exact hc d hd

/-- The storage at reset is in its canonical form. -/
theorem reset_bank_wf : Memory.wf State.reset.blk.bank := List.Pairwise.nil

/-- Bytes of the banks do not share addresses. -/
theorem bankAddr_inj {x y : BitVec 1} {i j : Nat} (hi : i < 65536) (hj : j < 65536) :
    bankAddr x i = bankAddr y j ↔ x = y ∧ i = j := by
  unfold bankAddr
  constructor
  · intro h
    exact ⟨BitVec.eq_of_toNat_eq (by omega), by omega⟩
  · rintro ⟨rfl, rfl⟩; rfl

/-- FRAME_CAP is at least 1 (R7). -/
theorem frameCap_pos (b : Build) : 1 ≤ b.frameCap := Nat.succ_pos _

/-- FRAME_CAP is at most 65280 (R7). -/
theorem frameCap_le (b : Build) : b.frameCap ≤ 65280 := b.capLess1.isLt

/-- The data window ends inside the offset space (R67). -/
theorem nw_le (b : Build) : b.nw ≤ 16320 := by
  have := frameCap_le b
  unfold Build.nw; omega

/-- `BankWrite` as an equation: the byte is stored where it exists. -/
theorem bankWrite_eq_some {b : Build} {bk : BitVec 1} {i : Nat} {v : Byte} {k k' : Block} :
    bankWrite b bk i v k = some k' ↔
      bankExists b bk i = true ∧ k' = { k with bank := Memory.write k.bank (bankAddr bk i) v } := by
  unfold bankWrite
  split
  · rename_i h; simp only [h, true_and, Option.some.injEq, eq_comm]
  · rename_i h; simp [h]

/-- Where the bank exists (R46: the one bank of a SHARED build is bank 0), so do its bytes below FRAME_CAP. -/
theorem bankExists_of {b : Build} {bk : BitVec 1} {i : Nat} (hb : b.buffering = .shared → bk = 0) (hi : i < b.frameCap) :
    bankExists b bk i = true := by
  have h2 := bk.isLt
  cases h : b.buffering with
  | shared => simp [bankExists, Build.nbank, h, hb h, hi]
  | double => simp [bankExists, Build.nbank, h, hi]; omega

end Sys2Proof.Machine
end

