-- ==== Sys2Proof/Laws/Decode.lean ====
section
/-! SUPPORT. The fields of the encoder's words: what each extraction of the decoder reads from a word of each format. -/

namespace Sys2Proof

section
variable (d : Byte) (v e t : Bool)

@[simp] theorem classOf_rxcWord : classOf (rxcWord d v e t) = 0 := by
  ext i hi; simp only [classOf, rxcWord, BitVec.getElem_extractLsb', BitVec.getLsbD_append]; interval_cases i <;> simp [BitVec.getLsbD_eq_getElem]

@[simp] theorem rxcWord_mustBeZero : (rxcWord d v e t).extractLsb' 11 17 = 0 := by
  ext i hi; simp only [rxcWord, BitVec.getElem_extractLsb', BitVec.getLsbD_append]; interval_cases i <;> simp [BitVec.getLsbD_eq_getElem]

@[simp] theorem rxcWord_d : (rxcWord d v e t).extractLsb' 0 8 = d := by
  ext i hi
  simp only [rxcWord, BitVec.getElem_extractLsb', BitVec.getLsbD_append]
  simp [hi]

@[simp] theorem rxcWord_v : (rxcWord d v e t)[8] = v := by
  rw [← BitVec.getLsbD_eq_getElem]; simp only [rxcWord, BitVec.getLsbD_append]; simp

@[simp] theorem rxcWord_e : (rxcWord d v e t)[9] = e := by
  rw [← BitVec.getLsbD_eq_getElem]; simp only [rxcWord, BitVec.getLsbD_append]; simp

@[simp] theorem rxcWord_t : (rxcWord d v e t)[10] = t := by
  rw [← BitVec.getLsbD_eq_getElem]; simp only [rxcWord, BitVec.getLsbD_append]; simp

end

section
variable (cls : BitVec 4) (size : BitVec 2) (off : Half)

@[simp] theorem classOf_busWord : classOf (busWord cls size off) = cls := by
  ext i hi; simp only [classOf, busWord, BitVec.getElem_extractLsb', BitVec.getLsbD_append]; interval_cases i <;> simp [BitVec.getLsbD_eq_getElem]

@[simp] theorem busWord_mustBeZero_high : (busWord cls size off).extractLsb' 26 2 = 0 := by
  ext i hi; simp only [busWord, BitVec.getElem_extractLsb', BitVec.getLsbD_append]; interval_cases i <;> simp [BitVec.getLsbD_eq_getElem]

@[simp] theorem busWord_mustBeZero_low : (busWord cls size off).extractLsb' 16 8 = 0 := by
  ext i hi; simp only [busWord, BitVec.getElem_extractLsb', BitVec.getLsbD_append]; interval_cases i <;> simp [BitVec.getLsbD_eq_getElem]

@[simp] theorem sizeField_busWord : sizeField (busWord cls size off) = size := by
  ext i hi; simp only [sizeField, busWord, BitVec.getElem_extractLsb', BitVec.getLsbD_append]; interval_cases i <;> simp [BitVec.getLsbD_eq_getElem]

@[simp] theorem offsetOf_busWord : offsetOf (busWord cls size off) = off := by
  ext i hi
  simp only [offsetOf, busWord, BitVec.getElem_extractLsb', BitVec.getLsbD_append]
  simp [hi]

end

@[simp] theorem classOf_syncWord (w : Bool) : classOf (syncWord w) = 3 := by cases w <;> decide

@[simp] theorem syncWord_mustBeZero (w : Bool) : (syncWord w).extractLsb' 1 27 = 0 := by cases w <;> decide

@[simp] theorem syncWord_w (w : Bool) : (syncWord w)[0] = w := by cases w <;> decide

@[simp] theorem classOf_rstWord : classOf rstWord = 4 := by decide

@[simp] theorem rstWord_mustBeZero : rstWord.extractLsb' 0 28 = 0 := by decide

/-- The offset of a word of the data window, as a number (R67: it fits). -/
theorem dataOffset_toNat {b : Build} {k : Nat} (h : k < b.nw) : (dataOffset k).toNat = 0x100 + 4 * k := by
  have := Machine.nw_le b
  simp only [dataOffset, BitVec.toNat_ofNat]; omega

/-- OFFSET[1:0] is the offset modulo 4 (R55). -/
theorem offset_low_bits (off : Half) : off.extractLsb' 0 2 = 0 ↔ offsetAligned off = true := by
  rw [← BitVec.toNat_inj]
  simp [offsetAligned, BitVec.extractLsb'_toNat]

/-! The register an offset names (R131). -/

/-- An offset at or above 0x20 is none of the eight registers. -/
theorem regOf_high {b : Build} {off : Half} (h : 0x20 ≤ off.toNat) :
    regOf b off =
      if 0x100 ≤ off.toNat ∧ off.toNat < 0x100 + 4 * b.nw then some (.data ((off.toNat - 0x100) / 4)) else none := by
  unfold regOf
  simp only [← BitVec.toNat_inj]
  repeat rw [if_neg (by simp; omega)]

/-- The offset of `DATA[k]` names it. -/
theorem regOf_dataOffset {b : Build} {k : Nat} (h : k < b.nw) : regOf b (dataOffset k) = some (.data k) := by
  have hn := dataOffset_toNat h
  rw [regOf_high (by omega), if_pos (by omega)]
  congr 2; omega

/-- A reserved offset names no register. -/
theorem regOf_reserved {b : Build} {off : Half} (h : offsetReserved b off = true) : regOf b off = none := by
  simp only [offsetReserved, Bool.and_eq_true, Bool.or_eq_true, decide_eq_true_eq] at h
  rw [regOf_high (by omega), if_neg (by omega)]

/-- An aligned offset that names no register is reserved. -/
theorem offsetReserved_of_regOf {b : Build} {off : Half} (ha : offsetAligned off = true) (h : regOf b off = none) :
    offsetReserved b off = true := by
  have hlow : 0x20 ≤ off.toNat := by
    by_contra hlt
    unfold regOf at h
    simp only [← BitVec.toNat_inj] at h
    simp only [offsetAligned, beq_iff_eq] at ha
    repeat' split at h
    all_goals simp_all
    omega
  rw [regOf_high hlow] at h
  split at h
  · cases h
  · simp only [offsetReserved, ha, Bool.true_and, Bool.or_eq_true, Bool.and_eq_true, decide_eq_true_eq]; omega

/-- An offset that names `DATA[k]` is in the window, and `k` is its word index. -/
theorem regOf_eq_data {b : Build} {off : Half} {k : Nat} (h : regOf b off = some (.data k)) :
    k < b.nw ∧ 0x100 ≤ off.toNat ∧ k = (off.toNat - 0x100) / 4 := by
  unfold regOf at h
  repeat' split at h
  all_goals simp at h
  omega

/-! The form of a word access (R131). -/

theorem wordForm_misaligned {b : Build} {off : Half} (h : offsetAligned off = false) : wordForm b off = .misaligned off := by
  unfold wordForm
  rw [if_pos (by rw [Ne, offset_low_bits, h]; exact Bool.false_ne_true)]

theorem wordForm_aligned {b : Build} {off : Half} (h : offsetAligned off = true) :
    wordForm b off = match regOf b off with | some r => .reg r | none => .rsvd off := by
  have low : ¬off.extractLsb' 0 2 ≠ 0 := by rw [Ne, offset_low_bits, h]; exact fun h => h rfl
  cases hr : regOf b off <;> simp only [wordForm, if_neg low, hr]

theorem wordForm_data {b : Build} {k : Nat} (h : k < b.nw) : wordForm b (dataOffset k) = .reg (.data k) := by
  rw [wordForm_aligned (by have := dataOffset_toNat h; simp only [offsetAligned, beq_iff_eq]; omega), regOf_dataOffset h]

theorem wordForm_reserved {b : Build} {off : Half} (h : offsetReserved b off = true) : wordForm b off = .rsvd off := by
  have ha : offsetAligned off = true := (Bool.and_eq_true_iff.mp h).1
  rw [wordForm_aligned ha, regOf_reserved h]

/-- What the decoder reads from a word of the bus formats (R72, R131). -/
theorem decodeBus_busWord (b : Build) (cls : BitVec 4) (size : BitVec 2) (off : Half) :
    decodeBus b (busWord cls size off) =
      if size = 3 then .error .reservedSize
      else if size = 0 then .ok (.badsize .bits8 off)
      else if size = 1 then .ok (.badsize .bits16 off)
      else .ok (wordForm b off) := by
  simp [decodeBus]

end Sys2Proof
end

