-- ==== Sys2Proof/Laws/Fields.lean ====
section
/-! SUPPORT. The field lemmas of the operations that act on the block's record: for each operation, what every field is after it. -/

namespace Sys2Proof.Machine

/-! R137: the three control bits. -/

section
variable (e r x : Bool) (k : Block)

@[simp] theorem setControlBits_rxs : (setControlBits e r x k).rxs = k.rxs := rfl
@[simp] theorem setControlBits_wrPtr : (setControlBits e r x k).wrPtr = k.wrPtr := rfl
@[simp] theorem setControlBits_idleCnt : (setControlBits e r x k).idleCnt = k.idleCnt := rfl
@[simp] theorem setControlBits_accBank : (setControlBits e r x k).accBank = k.accBank := rfl
@[simp] theorem setControlBits_bank : (setControlBits e r x k).bank = k.bank := rfl
@[simp] theorem setControlBits_mbBank : (setControlBits e r x k).mbBank = k.mbBank := rfl
@[simp] theorem setControlBits_mbLen : (setControlBits e r x k).mbLen = k.mbLen := rfl
@[simp] theorem setControlBits_slotDirty : (setControlBits e r x k).slotDirty = k.slotDirty := rfl
@[simp] theorem setControlBits_slotFull : (setControlBits e r x k).slotFull = k.slotFull := rfl
@[simp] theorem setControlBits_setPending : (setControlBits e r x k).setPending = k.setPending := rfl
@[simp] theorem setControlBits_relPending : (setControlBits e r x k).relPending = k.relPending := rfl
@[simp] theorem setControlBits_ready : (setControlBits e r x k).ready = k.ready := rfl
@[simp] theorem setControlBits_held : (setControlBits e r x k).held = k.held := rfl
@[simp] theorem setControlBits_en : (setControlBits e r x k).en = e := rfl
@[simp] theorem setControlBits_rdyIe : (setControlBits e r x k).rdyIe = r := rfl
@[simp] theorem setControlBits_errIe : (setControlBits e r x k).errIe = x := rfl
@[simp] theorem setControlBits_idleThr : (setControlBits e r x k).idleThr = k.idleThr := rfl
@[simp] theorem setControlBits_ovf : (setControlBits e r x k).ovf = k.ovf := rfl
@[simp] theorem setControlBits_mboxOvr : (setControlBits e r x k).mboxOvr = k.mboxOvr := rfl
@[simp] theorem setControlBits_haz : (setControlBits e r x k).haz = k.haz := rfl

end

/-! R137: `writeCtrl`. -/

section
variable (e r x : Bool) (k : Block)

@[simp] theorem writeCtrl_rxs : (writeCtrl e r x k).rxs = if k.en = true ∧ e = false then .idle else k.rxs := by
  unfold writeCtrl; split <;> simp_all
@[simp] theorem writeCtrl_wrPtr : (writeCtrl e r x k).wrPtr = if k.en = true ∧ e = false then 0 else k.wrPtr := by
  unfold writeCtrl; split <;> simp_all
@[simp] theorem writeCtrl_idleCnt : (writeCtrl e r x k).idleCnt = if k.en = true ∧ e = false then 0 else k.idleCnt := by
  unfold writeCtrl; split <;> simp_all
@[simp] theorem writeCtrl_accBank : (writeCtrl e r x k).accBank = k.accBank := by unfold writeCtrl; split <;> rfl
@[simp] theorem writeCtrl_bank : (writeCtrl e r x k).bank = k.bank := by unfold writeCtrl; split <;> rfl
@[simp] theorem writeCtrl_mbBank : (writeCtrl e r x k).mbBank = k.mbBank := by unfold writeCtrl; split <;> rfl
@[simp] theorem writeCtrl_mbLen : (writeCtrl e r x k).mbLen = k.mbLen := by unfold writeCtrl; split <;> rfl
@[simp] theorem writeCtrl_slotDirty : (writeCtrl e r x k).slotDirty = k.slotDirty := by unfold writeCtrl; split <;> rfl
@[simp] theorem writeCtrl_slotFull : (writeCtrl e r x k).slotFull = k.slotFull := by unfold writeCtrl; split <;> rfl
@[simp] theorem writeCtrl_setPending : (writeCtrl e r x k).setPending = k.setPending := by unfold writeCtrl; split <;> rfl
@[simp] theorem writeCtrl_relPending : (writeCtrl e r x k).relPending = k.relPending := by unfold writeCtrl; split <;> rfl
@[simp] theorem writeCtrl_ready : (writeCtrl e r x k).ready = k.ready := by unfold writeCtrl; split <;> rfl
@[simp] theorem writeCtrl_held : (writeCtrl e r x k).held = k.held := by unfold writeCtrl; split <;> rfl
@[simp] theorem writeCtrl_en : (writeCtrl e r x k).en = e := by unfold writeCtrl; split <;> rfl
@[simp] theorem writeCtrl_rdyIe : (writeCtrl e r x k).rdyIe = r := by unfold writeCtrl; split <;> rfl
@[simp] theorem writeCtrl_errIe : (writeCtrl e r x k).errIe = x := by unfold writeCtrl; split <;> rfl
@[simp] theorem writeCtrl_idleThr : (writeCtrl e r x k).idleThr = k.idleThr := by unfold writeCtrl; split <;> rfl
@[simp] theorem writeCtrl_ovf : (writeCtrl e r x k).ovf = k.ovf := by unfold writeCtrl; split <;> rfl
@[simp] theorem writeCtrl_mboxOvr : (writeCtrl e r x k).mboxOvr = k.mboxOvr := by unfold writeCtrl; split <;> rfl
@[simp] theorem writeCtrl_haz : (writeCtrl e r x k).haz = k.haz := by unfold writeCtrl; split <;> rfl

end

/-! R139: `writeIdleThr`. -/

section
variable (v : Half) (k : Block)

@[simp] theorem writeIdleThr_rxs : (writeIdleThr v k).rxs = k.rxs := by unfold writeIdleThr; split <;> rfl
@[simp] theorem writeIdleThr_wrPtr : (writeIdleThr v k).wrPtr = k.wrPtr := by unfold writeIdleThr; split <;> rfl
@[simp] theorem writeIdleThr_idleCnt : (writeIdleThr v k).idleCnt = k.idleCnt := by unfold writeIdleThr; split <;> rfl
@[simp] theorem writeIdleThr_accBank : (writeIdleThr v k).accBank = k.accBank := by unfold writeIdleThr; split <;> rfl
@[simp] theorem writeIdleThr_bank : (writeIdleThr v k).bank = k.bank := by unfold writeIdleThr; split <;> rfl
@[simp] theorem writeIdleThr_mbBank : (writeIdleThr v k).mbBank = k.mbBank := by unfold writeIdleThr; split <;> rfl
@[simp] theorem writeIdleThr_mbLen : (writeIdleThr v k).mbLen = k.mbLen := by unfold writeIdleThr; split <;> rfl
@[simp] theorem writeIdleThr_slotDirty : (writeIdleThr v k).slotDirty = k.slotDirty := by unfold writeIdleThr; split <;> rfl
@[simp] theorem writeIdleThr_slotFull : (writeIdleThr v k).slotFull = k.slotFull := by unfold writeIdleThr; split <;> rfl
@[simp] theorem writeIdleThr_setPending : (writeIdleThr v k).setPending = k.setPending := by
  unfold writeIdleThr; split <;> rfl
@[simp] theorem writeIdleThr_relPending : (writeIdleThr v k).relPending = k.relPending := by
  unfold writeIdleThr; split <;> rfl
@[simp] theorem writeIdleThr_ready : (writeIdleThr v k).ready = k.ready := by unfold writeIdleThr; split <;> rfl
@[simp] theorem writeIdleThr_held : (writeIdleThr v k).held = k.held := by unfold writeIdleThr; split <;> rfl
@[simp] theorem writeIdleThr_en : (writeIdleThr v k).en = k.en := by unfold writeIdleThr; split <;> rfl
@[simp] theorem writeIdleThr_rdyIe : (writeIdleThr v k).rdyIe = k.rdyIe := by unfold writeIdleThr; split <;> rfl
@[simp] theorem writeIdleThr_errIe : (writeIdleThr v k).errIe = k.errIe := by unfold writeIdleThr; split <;> rfl
@[simp] theorem writeIdleThr_idleThr : (writeIdleThr v k).idleThr = if k.en = true then k.idleThr else v := by
  unfold writeIdleThr; split <;> simp_all
@[simp] theorem writeIdleThr_ovf : (writeIdleThr v k).ovf = k.ovf := by unfold writeIdleThr; split <;> rfl
@[simp] theorem writeIdleThr_mboxOvr : (writeIdleThr v k).mboxOvr = k.mboxOvr := by unfold writeIdleThr; split <;> rfl
@[simp] theorem writeIdleThr_haz : (writeIdleThr v k).haz = k.haz := by unfold writeIdleThr; split <;> rfl

end

/-! R146: `writeRelease`. -/

section
variable (q : Bool) (k : Block)

@[simp] theorem writeRelease_rxs : (writeRelease q k).rxs = k.rxs := by unfold writeRelease; split <;> rfl
@[simp] theorem writeRelease_wrPtr : (writeRelease q k).wrPtr = k.wrPtr := by unfold writeRelease; split <;> rfl
@[simp] theorem writeRelease_idleCnt : (writeRelease q k).idleCnt = k.idleCnt := by unfold writeRelease; split <;> rfl
@[simp] theorem writeRelease_accBank : (writeRelease q k).accBank = k.accBank := by unfold writeRelease; split <;> rfl
@[simp] theorem writeRelease_bank : (writeRelease q k).bank = k.bank := by unfold writeRelease; split <;> rfl
@[simp] theorem writeRelease_mbBank : (writeRelease q k).mbBank = k.mbBank := by unfold writeRelease; split <;> rfl
@[simp] theorem writeRelease_mbLen : (writeRelease q k).mbLen = k.mbLen := by unfold writeRelease; split <;> rfl
@[simp] theorem writeRelease_slotDirty : (writeRelease q k).slotDirty = k.slotDirty := by unfold writeRelease; split <;> rfl
@[simp] theorem writeRelease_slotFull : (writeRelease q k).slotFull = k.slotFull := by unfold writeRelease; split <;> rfl
@[simp] theorem writeRelease_setPending : (writeRelease q k).setPending = k.setPending := by
  unfold writeRelease; split <;> rfl
@[simp] theorem writeRelease_relPending : (writeRelease q k).relPending = (k.relPending || (q && k.held)) := by
  cases q <;> cases h : k.held <;> simp [writeRelease, h]
@[simp] theorem writeRelease_ready : (writeRelease q k).ready = k.ready := by unfold writeRelease; split <;> rfl
@[simp] theorem writeRelease_held : (writeRelease q k).held = (k.held && !q) := by cases q <;> cases h : k.held <;> simp [writeRelease, h]
@[simp] theorem writeRelease_en : (writeRelease q k).en = k.en := by unfold writeRelease; split <;> rfl
@[simp] theorem writeRelease_rdyIe : (writeRelease q k).rdyIe = k.rdyIe := by unfold writeRelease; split <;> rfl
@[simp] theorem writeRelease_errIe : (writeRelease q k).errIe = k.errIe := by unfold writeRelease; split <;> rfl
@[simp] theorem writeRelease_idleThr : (writeRelease q k).idleThr = k.idleThr := by unfold writeRelease; split <;> rfl
@[simp] theorem writeRelease_ovf : (writeRelease q k).ovf = k.ovf := by unfold writeRelease; split <;> rfl
@[simp] theorem writeRelease_mboxOvr : (writeRelease q k).mboxOvr = k.mboxOvr := by unfold writeRelease; split <;> rfl
@[simp] theorem writeRelease_haz : (writeRelease q k).haz = k.haz := by unfold writeRelease; split <;> rfl

end

/-! R142: `clearSticky`. -/

section
variable (o m z : Bool) (k : Block)

@[simp] theorem clearSticky_rxs : (clearSticky o m z k).rxs = k.rxs := rfl
@[simp] theorem clearSticky_wrPtr : (clearSticky o m z k).wrPtr = k.wrPtr := rfl
@[simp] theorem clearSticky_idleCnt : (clearSticky o m z k).idleCnt = k.idleCnt := rfl
@[simp] theorem clearSticky_accBank : (clearSticky o m z k).accBank = k.accBank := rfl
@[simp] theorem clearSticky_bank : (clearSticky o m z k).bank = k.bank := rfl
@[simp] theorem clearSticky_mbBank : (clearSticky o m z k).mbBank = k.mbBank := rfl
@[simp] theorem clearSticky_mbLen : (clearSticky o m z k).mbLen = k.mbLen := rfl
@[simp] theorem clearSticky_slotDirty : (clearSticky o m z k).slotDirty = k.slotDirty := rfl
@[simp] theorem clearSticky_slotFull : (clearSticky o m z k).slotFull = k.slotFull := rfl
@[simp] theorem clearSticky_setPending : (clearSticky o m z k).setPending = k.setPending := rfl
@[simp] theorem clearSticky_relPending : (clearSticky o m z k).relPending = k.relPending := rfl
@[simp] theorem clearSticky_ready : (clearSticky o m z k).ready = k.ready := rfl
@[simp] theorem clearSticky_held : (clearSticky o m z k).held = k.held := rfl
@[simp] theorem clearSticky_en : (clearSticky o m z k).en = k.en := rfl
@[simp] theorem clearSticky_rdyIe : (clearSticky o m z k).rdyIe = k.rdyIe := rfl
@[simp] theorem clearSticky_errIe : (clearSticky o m z k).errIe = k.errIe := rfl
@[simp] theorem clearSticky_idleThr : (clearSticky o m z k).idleThr = k.idleThr := rfl
@[simp] theorem clearSticky_ovf : (clearSticky o m z k).ovf = (k.ovf && !o) := rfl
@[simp] theorem clearSticky_mboxOvr : (clearSticky o m z k).mboxOvr = (k.mboxOvr && !m) := rfl
@[simp] theorem clearSticky_haz : (clearSticky o m z k).haz = (k.haz && !z) := rfl

end

/-! R143: `takeFrame`. -/

section
variable (k : Block)

@[simp] theorem takeFrame_rxs : (takeFrame k).rxs = k.rxs := rfl
@[simp] theorem takeFrame_wrPtr : (takeFrame k).wrPtr = k.wrPtr := rfl
@[simp] theorem takeFrame_idleCnt : (takeFrame k).idleCnt = k.idleCnt := rfl
@[simp] theorem takeFrame_accBank : (takeFrame k).accBank = k.accBank := rfl
@[simp] theorem takeFrame_bank : (takeFrame k).bank = k.bank := rfl
@[simp] theorem takeFrame_mbBank : (takeFrame k).mbBank = k.mbBank := rfl
@[simp] theorem takeFrame_mbLen : (takeFrame k).mbLen = k.mbLen := rfl
@[simp] theorem takeFrame_slotDirty : (takeFrame k).slotDirty = k.slotDirty := rfl
@[simp] theorem takeFrame_slotFull : (takeFrame k).slotFull = k.slotFull := rfl
@[simp] theorem takeFrame_setPending : (takeFrame k).setPending = k.setPending := rfl
@[simp] theorem takeFrame_relPending : (takeFrame k).relPending = k.relPending := rfl
@[simp] theorem takeFrame_ready : (takeFrame k).ready = false := rfl
@[simp] theorem takeFrame_held : (takeFrame k).held = true := rfl
@[simp] theorem takeFrame_en : (takeFrame k).en = k.en := rfl
@[simp] theorem takeFrame_rdyIe : (takeFrame k).rdyIe = k.rdyIe := rfl
@[simp] theorem takeFrame_errIe : (takeFrame k).errIe = k.errIe := rfl
@[simp] theorem takeFrame_idleThr : (takeFrame k).idleThr = k.idleThr := rfl
@[simp] theorem takeFrame_ovf : (takeFrame k).ovf = k.ovf := rfl
@[simp] theorem takeFrame_mboxOvr : (takeFrame k).mboxOvr = k.mboxOvr := rfl
@[simp] theorem takeFrame_haz : (takeFrame k).haz = k.haz := rfl

end

/-! R116: `syncSet`. -/

section
variable (k : Block)

@[simp] theorem syncSet_rxs : (syncSet k).rxs = k.rxs := by unfold syncSet; split <;> rfl
@[simp] theorem syncSet_wrPtr : (syncSet k).wrPtr = k.wrPtr := by unfold syncSet; split <;> rfl
@[simp] theorem syncSet_idleCnt : (syncSet k).idleCnt = k.idleCnt := by unfold syncSet; split <;> rfl
@[simp] theorem syncSet_accBank : (syncSet k).accBank = k.accBank := by unfold syncSet; split <;> rfl
@[simp] theorem syncSet_bank : (syncSet k).bank = k.bank := by unfold syncSet; split <;> rfl
@[simp] theorem syncSet_mbBank : (syncSet k).mbBank = k.mbBank := by unfold syncSet; split <;> rfl
@[simp] theorem syncSet_mbLen : (syncSet k).mbLen = k.mbLen := by unfold syncSet; split <;> rfl
@[simp] theorem syncSet_slotDirty : (syncSet k).slotDirty = k.slotDirty := by unfold syncSet; split <;> rfl
@[simp] theorem syncSet_slotFull : (syncSet k).slotFull = k.slotFull := by unfold syncSet; split <;> rfl
@[simp] theorem syncSet_setPending : (syncSet k).setPending = false := by unfold syncSet; split <;> simp_all
@[simp] theorem syncSet_relPending : (syncSet k).relPending = k.relPending := by unfold syncSet; split <;> rfl
@[simp] theorem syncSet_ready : (syncSet k).ready = (k.ready || k.setPending) := by unfold syncSet; split <;> simp_all
@[simp] theorem syncSet_held : (syncSet k).held = k.held := by unfold syncSet; split <;> rfl
@[simp] theorem syncSet_en : (syncSet k).en = k.en := by unfold syncSet; split <;> rfl
@[simp] theorem syncSet_rdyIe : (syncSet k).rdyIe = k.rdyIe := by unfold syncSet; split <;> rfl
@[simp] theorem syncSet_errIe : (syncSet k).errIe = k.errIe := by unfold syncSet; split <;> rfl
@[simp] theorem syncSet_idleThr : (syncSet k).idleThr = k.idleThr := by unfold syncSet; split <;> rfl
@[simp] theorem syncSet_ovf : (syncSet k).ovf = k.ovf := by unfold syncSet; split <;> rfl
@[simp] theorem syncSet_mboxOvr : (syncSet k).mboxOvr = k.mboxOvr := by unfold syncSet; split <;> rfl
@[simp] theorem syncSet_haz : (syncSet k).haz = k.haz := by unfold syncSet; split <;> rfl

end

/-! R117: `syncRel`. -/

section
variable (k : Block)

@[simp] theorem syncRel_rxs : (syncRel k).rxs = k.rxs := by unfold syncRel; split <;> rfl
@[simp] theorem syncRel_wrPtr : (syncRel k).wrPtr = k.wrPtr := by unfold syncRel; split <;> rfl
@[simp] theorem syncRel_idleCnt : (syncRel k).idleCnt = k.idleCnt := by unfold syncRel; split <;> rfl
@[simp] theorem syncRel_accBank : (syncRel k).accBank = k.accBank := by unfold syncRel; split <;> rfl
@[simp] theorem syncRel_bank : (syncRel k).bank = k.bank := by unfold syncRel; split <;> rfl
@[simp] theorem syncRel_mbBank : (syncRel k).mbBank = k.mbBank := by unfold syncRel; split <;> rfl
@[simp] theorem syncRel_mbLen : (syncRel k).mbLen = k.mbLen := by unfold syncRel; split <;> rfl
@[simp] theorem syncRel_slotDirty : (syncRel k).slotDirty = k.slotDirty := by unfold syncRel; split <;> rfl
@[simp] theorem syncRel_slotFull : (syncRel k).slotFull = (k.slotFull && !k.relPending) := by
  unfold syncRel; split <;> simp_all
@[simp] theorem syncRel_setPending : (syncRel k).setPending = k.setPending := by unfold syncRel; split <;> rfl
@[simp] theorem syncRel_relPending : (syncRel k).relPending = false := by unfold syncRel; split <;> simp_all
@[simp] theorem syncRel_ready : (syncRel k).ready = k.ready := by unfold syncRel; split <;> rfl
@[simp] theorem syncRel_held : (syncRel k).held = k.held := by unfold syncRel; split <;> rfl
@[simp] theorem syncRel_en : (syncRel k).en = k.en := by unfold syncRel; split <;> rfl
@[simp] theorem syncRel_rdyIe : (syncRel k).rdyIe = k.rdyIe := by unfold syncRel; split <;> rfl
@[simp] theorem syncRel_errIe : (syncRel k).errIe = k.errIe := by unfold syncRel; split <;> rfl
@[simp] theorem syncRel_idleThr : (syncRel k).idleThr = k.idleThr := by unfold syncRel; split <;> rfl
@[simp] theorem syncRel_ovf : (syncRel k).ovf = k.ovf := by unfold syncRel; split <;> rfl
@[simp] theorem syncRel_mboxOvr : (syncRel k).mboxOvr = k.mboxOvr := by unfold syncRel; split <;> rfl
@[simp] theorem syncRel_haz : (syncRel k).haz = k.haz := by unfold syncRel; split <;> rfl

end

/-! R97: `overflowFrame`. -/

section
variable (k : Block)

@[simp] theorem overflowFrame_rxs : (overflowFrame k).rxs = .discard := rfl
@[simp] theorem overflowFrame_wrPtr : (overflowFrame k).wrPtr = k.wrPtr := rfl
@[simp] theorem overflowFrame_idleCnt : (overflowFrame k).idleCnt = 0 := rfl
@[simp] theorem overflowFrame_accBank : (overflowFrame k).accBank = k.accBank := rfl
@[simp] theorem overflowFrame_bank : (overflowFrame k).bank = k.bank := rfl
@[simp] theorem overflowFrame_mbBank : (overflowFrame k).mbBank = k.mbBank := rfl
@[simp] theorem overflowFrame_mbLen : (overflowFrame k).mbLen = k.mbLen := rfl
@[simp] theorem overflowFrame_slotDirty : (overflowFrame k).slotDirty = k.slotDirty := rfl
@[simp] theorem overflowFrame_slotFull : (overflowFrame k).slotFull = k.slotFull := rfl
@[simp] theorem overflowFrame_setPending : (overflowFrame k).setPending = k.setPending := rfl
@[simp] theorem overflowFrame_relPending : (overflowFrame k).relPending = k.relPending := rfl
@[simp] theorem overflowFrame_ready : (overflowFrame k).ready = k.ready := rfl
@[simp] theorem overflowFrame_held : (overflowFrame k).held = k.held := rfl
@[simp] theorem overflowFrame_en : (overflowFrame k).en = k.en := rfl
@[simp] theorem overflowFrame_rdyIe : (overflowFrame k).rdyIe = k.rdyIe := rfl
@[simp] theorem overflowFrame_errIe : (overflowFrame k).errIe = k.errIe := rfl
@[simp] theorem overflowFrame_idleThr : (overflowFrame k).idleThr = k.idleThr := rfl
@[simp] theorem overflowFrame_ovf : (overflowFrame k).ovf = true := rfl
@[simp] theorem overflowFrame_mboxOvr : (overflowFrame k).mboxOvr = k.mboxOvr := rfl
@[simp] theorem overflowFrame_haz : (overflowFrame k).haz = k.haz := rfl

end

/-! R98: `discardByte`. -/

section
variable (k : Block)

@[simp] theorem discardByte_rxs : (discardByte k).rxs = k.rxs := rfl
@[simp] theorem discardByte_wrPtr : (discardByte k).wrPtr = k.wrPtr := rfl
@[simp] theorem discardByte_idleCnt : (discardByte k).idleCnt = 0 := rfl
@[simp] theorem discardByte_accBank : (discardByte k).accBank = k.accBank := rfl
@[simp] theorem discardByte_bank : (discardByte k).bank = k.bank := rfl
@[simp] theorem discardByte_mbBank : (discardByte k).mbBank = k.mbBank := rfl
@[simp] theorem discardByte_mbLen : (discardByte k).mbLen = k.mbLen := rfl
@[simp] theorem discardByte_slotDirty : (discardByte k).slotDirty = k.slotDirty := rfl
@[simp] theorem discardByte_slotFull : (discardByte k).slotFull = k.slotFull := rfl
@[simp] theorem discardByte_setPending : (discardByte k).setPending = k.setPending := rfl
@[simp] theorem discardByte_relPending : (discardByte k).relPending = k.relPending := rfl
@[simp] theorem discardByte_ready : (discardByte k).ready = k.ready := rfl
@[simp] theorem discardByte_held : (discardByte k).held = k.held := rfl
@[simp] theorem discardByte_en : (discardByte k).en = k.en := rfl
@[simp] theorem discardByte_rdyIe : (discardByte k).rdyIe = k.rdyIe := rfl
@[simp] theorem discardByte_errIe : (discardByte k).errIe = k.errIe := rfl
@[simp] theorem discardByte_idleThr : (discardByte k).idleThr = k.idleThr := rfl
@[simp] theorem discardByte_ovf : (discardByte k).ovf = k.ovf := rfl
@[simp] theorem discardByte_mboxOvr : (discardByte k).mboxOvr = k.mboxOvr := rfl
@[simp] theorem discardByte_haz : (discardByte k).haz = k.haz := rfl

end

/-! R102: `rxcEdge`. -/

section
variable (k : Block)

@[simp] theorem rxcEdge_rxs : (rxcEdge k).rxs = k.rxs := by unfold rxcEdge; split <;> rfl
@[simp] theorem rxcEdge_wrPtr : (rxcEdge k).wrPtr = k.wrPtr := by unfold rxcEdge; split <;> rfl
@[simp] theorem rxcEdge_idleCnt : (rxcEdge k).idleCnt = if k.rxs = .idle then k.idleCnt else 0 := by
  unfold rxcEdge; split <;> simp_all
@[simp] theorem rxcEdge_accBank : (rxcEdge k).accBank = k.accBank := by unfold rxcEdge; split <;> rfl
@[simp] theorem rxcEdge_bank : (rxcEdge k).bank = k.bank := by unfold rxcEdge; split <;> rfl
@[simp] theorem rxcEdge_mbBank : (rxcEdge k).mbBank = k.mbBank := by unfold rxcEdge; split <;> rfl
@[simp] theorem rxcEdge_mbLen : (rxcEdge k).mbLen = k.mbLen := by unfold rxcEdge; split <;> rfl
@[simp] theorem rxcEdge_slotDirty : (rxcEdge k).slotDirty = k.slotDirty := by unfold rxcEdge; split <;> rfl
@[simp] theorem rxcEdge_slotFull : (rxcEdge k).slotFull = k.slotFull := by unfold rxcEdge; split <;> rfl
@[simp] theorem rxcEdge_setPending : (rxcEdge k).setPending = k.setPending := by unfold rxcEdge; split <;> rfl
@[simp] theorem rxcEdge_relPending : (rxcEdge k).relPending = k.relPending := by unfold rxcEdge; split <;> rfl
@[simp] theorem rxcEdge_ready : (rxcEdge k).ready = k.ready := by unfold rxcEdge; split <;> rfl
@[simp] theorem rxcEdge_held : (rxcEdge k).held = k.held := by unfold rxcEdge; split <;> rfl
@[simp] theorem rxcEdge_en : (rxcEdge k).en = k.en := by unfold rxcEdge; split <;> rfl
@[simp] theorem rxcEdge_rdyIe : (rxcEdge k).rdyIe = k.rdyIe := by unfold rxcEdge; split <;> rfl
@[simp] theorem rxcEdge_errIe : (rxcEdge k).errIe = k.errIe := by unfold rxcEdge; split <;> rfl
@[simp] theorem rxcEdge_idleThr : (rxcEdge k).idleThr = k.idleThr := by unfold rxcEdge; split <;> rfl
@[simp] theorem rxcEdge_ovf : (rxcEdge k).ovf = k.ovf := by unfold rxcEdge; split <;> rfl
@[simp] theorem rxcEdge_mboxOvr : (rxcEdge k).mboxOvr = k.mboxOvr := by unfold rxcEdge; split <;> rfl
@[simp] theorem rxcEdge_haz : (rxcEdge k).haz = k.haz := by unfold rxcEdge; split <;> rfl

end

end Sys2Proof.Machine
end

