-- ==== Sys2Proof/Laws/PerInstr.lean ====
section
/-! SUPPORT. One family of statements about every event as syntax: an event is encoded in its format, one descriptor whose CLASS is
the event's, and one operand word after it exactly for a bus write (R70, R82). -/

namespace Sys2Proof

/-- CLASS of an event's descriptor (R70). -/
def Instr.eventClass : Instr → BitVec 4
  | .rxcNop | .rxcByte _ _ _ | .rxcEdge _ | .rxcTick => 0
  | .busrCtrl | .busrIdleThr | .busrStatus | .busrPop | .busrRelease | .busrRxLevel | .busrIdleCnt | .busrConfig
  | .busrData _ | .busrRsvd _ | .busrMisaligned _ | .busrBadsize _ _ => 1
  | .buswCtrl _ | .buswIdleThr _ | .buswStatus _ | .buswPop _ | .buswRelease _ | .buswRxLevel _ | .buswIdleCnt _
  | .buswConfig _ | .buswData _ _ | .buswRsvd _ _ | .buswMisaligned _ _ | .buswBadsize _ _ _ => 2
  | .syncSet | .syncRel => 3
  | .rst => 4

/-- The operand words of an event (R70, R82). -/
def Instr.operandWords : Instr → List Word
  | .buswCtrl wdata | .buswIdleThr wdata | .buswStatus wdata | .buswPop wdata | .buswRelease wdata | .buswRxLevel wdata
  | .buswIdleCnt wdata | .buswConfig wdata | .buswData _ wdata | .buswRsvd _ wdata | .buswMisaligned _ wdata
  | .buswBadsize _ _ wdata => [wdata]
  | _ => []

namespace Laws.InFormat

/-- The event is one descriptor of its CLASS, then its operand words. -/
def Statement (i : Instr) : Prop := ∃ w, encode i = w :: i.operandWords ∧ classOf w = i.eventClass

theorem rxcNop : Statement .rxcNop := ⟨_, rfl, classOf_rxcWord ..⟩
theorem rxcByte (d : Byte) (e t : Bool) : Statement (.rxcByte d e t) := ⟨_, rfl, classOf_rxcWord ..⟩
theorem rxcEdge (t : Bool) : Statement (.rxcEdge t) := ⟨_, rfl, classOf_rxcWord ..⟩
theorem rxcTick : Statement .rxcTick := ⟨_, rfl, classOf_rxcWord ..⟩
theorem busrCtrl : Statement .busrCtrl := ⟨_, rfl, classOf_busWord ..⟩
theorem busrIdleThr : Statement .busrIdleThr := ⟨_, rfl, classOf_busWord ..⟩
theorem busrStatus : Statement .busrStatus := ⟨_, rfl, classOf_busWord ..⟩
theorem busrPop : Statement .busrPop := ⟨_, rfl, classOf_busWord ..⟩
theorem busrRelease : Statement .busrRelease := ⟨_, rfl, classOf_busWord ..⟩
theorem busrRxLevel : Statement .busrRxLevel := ⟨_, rfl, classOf_busWord ..⟩
theorem busrIdleCnt : Statement .busrIdleCnt := ⟨_, rfl, classOf_busWord ..⟩
theorem busrConfig : Statement .busrConfig := ⟨_, rfl, classOf_busWord ..⟩
theorem busrData (k : Nat) : Statement (.busrData k) := ⟨_, rfl, classOf_busWord ..⟩
theorem busrRsvd (off : Half) : Statement (.busrRsvd off) := ⟨_, rfl, classOf_busWord ..⟩
theorem busrMisaligned (off : Half) : Statement (.busrMisaligned off) := ⟨_, rfl, classOf_busWord ..⟩
theorem busrBadsize (size : NarrowSize) (off : Half) : Statement (.busrBadsize size off) := ⟨_, rfl, classOf_busWord ..⟩
theorem buswCtrl (wdata : Word) : Statement (.buswCtrl wdata) := ⟨_, rfl, classOf_busWord ..⟩
theorem buswIdleThr (wdata : Word) : Statement (.buswIdleThr wdata) := ⟨_, rfl, classOf_busWord ..⟩
theorem buswStatus (wdata : Word) : Statement (.buswStatus wdata) := ⟨_, rfl, classOf_busWord ..⟩
theorem buswPop (wdata : Word) : Statement (.buswPop wdata) := ⟨_, rfl, classOf_busWord ..⟩
theorem buswRelease (wdata : Word) : Statement (.buswRelease wdata) := ⟨_, rfl, classOf_busWord ..⟩
theorem buswRxLevel (wdata : Word) : Statement (.buswRxLevel wdata) := ⟨_, rfl, classOf_busWord ..⟩
theorem buswIdleCnt (wdata : Word) : Statement (.buswIdleCnt wdata) := ⟨_, rfl, classOf_busWord ..⟩
theorem buswConfig (wdata : Word) : Statement (.buswConfig wdata) := ⟨_, rfl, classOf_busWord ..⟩
theorem buswData (k : Nat) (wdata : Word) : Statement (.buswData k wdata) := ⟨_, rfl, classOf_busWord ..⟩
theorem buswRsvd (off : Half) (wdata : Word) : Statement (.buswRsvd off wdata) := ⟨_, rfl, classOf_busWord ..⟩
theorem buswMisaligned (off : Half) (wdata : Word) : Statement (.buswMisaligned off wdata) := ⟨_, rfl, classOf_busWord ..⟩
theorem buswBadsize (size : NarrowSize) (off : Half) (wdata : Word) : Statement (.buswBadsize size off wdata) :=
  ⟨_, rfl, classOf_busWord ..⟩
theorem syncSet : Statement .syncSet := ⟨_, rfl, classOf_syncWord _⟩
theorem syncRel : Statement .syncRel := ⟨_, rfl, classOf_syncWord _⟩
theorem rst : Statement .rst := ⟨_, rfl, classOf_rstWord⟩

end Laws.InFormat

end Sys2Proof
end

