-- ==== Sys2Proof/Laws/Receiver.lean ====
section
/-! SUPPORT. Everything a byte and a tick can do, said once (`rxcByte_cases`, `rxcTick_cases`), with the threshold comparison in
natural numbers (`thr_le_iff`), and the fields of `publish`, `overflowFrame`, `takeFrame` and the disable. -/

namespace Sys2Proof.Machine

open Sys2Proof

/-! ### The idle counter against the threshold (R99) -/

/-- `max(idle_thr, 1)` as a number. -/
theorem maxU_one_toNat (v : Half) : (maxU v 1).toNat = max v.toNat 1 := by
  have one : (1 : Half).toNat = 1 := rfl
  unfold maxU
  split <;> rename_i h <;> rw [BitVec.lt_def, one] at h
  · omega
  · omega

/-- `sat_inc` as a number. -/
theorem satInc_toNat (v : Half) : (satInc v).toNat = min (v.toNat + 1) 0xFFFF := by
  have top : (0xFFFF : Half).toNat = 0xFFFF := rfl
  have one : (1 : Half).toNat = 1 := rfl
  have := v.isLt
  unfold satInc
  split <;> rename_i h <;> rw [BitVec.lt_def, top] at h
  · rw [BitVec.toNat_add, one]; omega
  · omega

/-- Below its largest value `sat_inc` adds 1. -/
theorem satInc_of_lt {v : Half} (h : v.toNat < 0xFFFF) : satInc v = v + 1 := if_pos h

/-- The test of `rxc_tick()`, in numbers. -/
theorem thr_le_iff (thr cnt : Half) :
    maxU thr 1 ≤ satInc cnt ↔ max thr.toNat 1 ≤ min (cnt.toNat + 1) 0xFFFF := by
  rw [BitVec.le_def, maxU_one_toNat, satInc_toNat]

/-! ### What a byte and a tick can do -/

/-- Everything a byte can do to the record (R93 to R98): start a frame, append, overflow, or be dropped. -/
theorem rxcByte_cases {b : Build} {d : Byte} {k k' : Block} (h : rxcByte b d k = some k') :
    (k.rxs = .idle ∧ bankExists b k.accBank 0 = true ∧
      k' = markOverlap b { k with
        bank := Memory.write k.bank (bankAddr k.accBank 0) d, wrPtr := 1, rxs := .accum, idleCnt := 0 }) ∨
    (k.rxs = .accum ∧ k.wrPtr.toNat < b.frameCap ∧ bankExists b k.accBank k.wrPtr.toNat = true ∧
      k' = markOverlap b { k with
        bank := Memory.write k.bank (bankAddr k.accBank k.wrPtr.toNat) d, wrPtr := k.wrPtr + 1, idleCnt := 0 }) ∨
    (k.rxs = .accum ∧ b.frameCap ≤ k.wrPtr.toNat ∧ k' = overflowFrame k) ∨
    (k.rxs = .discard ∧ k' = discardByte k) := by
  unfold rxcByte at h
  split at h
  · rename_i hr
    simp only [startFrame, Option.map_eq_some_iff, bankWrite_eq_some] at h
    obtain ⟨_, ⟨he, rfl⟩, rfl⟩ := h
    exact .inl ⟨hr, he, rfl⟩
  · rename_i hr
    split at h
    · rename_i hw
      simp only [appendByte, Option.map_eq_some_iff, bankWrite_eq_some] at h
      obtain ⟨_, ⟨he, rfl⟩, rfl⟩ := h
      exact .inr (.inl ⟨hr, hw, he, rfl⟩)
    · rename_i hw; cases h; exact .inr (.inr (.inl ⟨hr, not_lt.mp hw, rfl⟩))
  · rename_i hr; cases h; exact .inr (.inr (.inr ⟨hr, rfl⟩))

/-- Everything a tick can do to the record (R99 to R101): nothing in IDLE, count, drop the frame, publish it, end a rejected one. -/
theorem rxcTick_cases (b : Build) (k : Block) :
    (k.rxs = .idle ∧ rxcTick b k = k) ∨
    (k.rxs ≠ .idle ∧ min (k.idleCnt.toNat + 1) 0xFFFF < max k.idleThr.toNat 1 ∧
      rxcTick b k = { k with idleCnt := satInc k.idleCnt }) ∨
    (k.rxs = .accum ∧ max k.idleThr.toNat 1 ≤ min (k.idleCnt.toNat + 1) 0xFFFF ∧ k.slotFull = true ∧
      rxcTick b k = frameBoundary { k with mboxOvr := true }) ∨
    (k.rxs = .accum ∧ max k.idleThr.toNat 1 ≤ min (k.idleCnt.toNat + 1) 0xFFFF ∧ k.slotFull = false ∧
      rxcTick b k = frameBoundary (publish b k.wrPtr k)) ∨
    (k.rxs = .discard ∧ max k.idleThr.toNat 1 ≤ min (k.idleCnt.toNat + 1) 0xFFFF ∧ rxcTick b k = frameBoundary k) := by
  unfold rxcTick
  split
  · rename_i h; exact .inl ⟨h, rfl⟩
  · rename_i h
    split <;> rename_i hle <;> rw [thr_le_iff] at hle
    · unfold expire
      cases hr : k.rxs with
      | idle => exact absurd hr h
      | accum =>
        cases hf : k.slotFull with
        | true => exact .inr (.inr (.inl ⟨rfl, hle, rfl, rfl⟩))
        | false => exact .inr (.inr (.inr (.inl ⟨rfl, hle, rfl, rfl⟩)))
      | discard => exact .inr (.inr (.inr (.inr ⟨rfl, hle, rfl⟩)))
    · exact .inr (.inl ⟨h, not_le.mp hle, rfl⟩)

/-! ### The fields of the smaller updates -/

section
variable (b : Build) (n : Half) (k : Block)

@[simp] theorem publish_rxs : (publish b n k).rxs = k.rxs := rfl
@[simp] theorem publish_wrPtr : (publish b n k).wrPtr = k.wrPtr := rfl
@[simp] theorem publish_idleCnt : (publish b n k).idleCnt = k.idleCnt := rfl
@[simp] theorem publish_accBank :
    (publish b n k).accBank = if b.buffering = .double then 1 - k.accBank else k.accBank := rfl
@[simp] theorem publish_bank : (publish b n k).bank = k.bank := rfl
@[simp] theorem publish_mbBank : (publish b n k).mbBank = k.accBank := rfl
@[simp] theorem publish_mbLen : (publish b n k).mbLen = n := rfl
@[simp] theorem publish_slotDirty : (publish b n k).slotDirty = false := rfl
@[simp] theorem publish_slotFull : (publish b n k).slotFull = true := rfl
@[simp] theorem publish_setPending : (publish b n k).setPending = true := rfl
@[simp] theorem publish_relPending : (publish b n k).relPending = k.relPending := rfl
@[simp] theorem publish_ready : (publish b n k).ready = k.ready := rfl
@[simp] theorem publish_held : (publish b n k).held = k.held := rfl
@[simp] theorem publish_en : (publish b n k).en = k.en := rfl
@[simp] theorem publish_rdyIe : (publish b n k).rdyIe = k.rdyIe := rfl
@[simp] theorem publish_errIe : (publish b n k).errIe = k.errIe := rfl
@[simp] theorem publish_idleThr : (publish b n k).idleThr = k.idleThr := rfl
@[simp] theorem publish_ovf : (publish b n k).ovf = k.ovf := rfl
@[simp] theorem publish_mboxOvr : (publish b n k).mboxOvr = k.mboxOvr := rfl
@[simp] theorem publish_haz : (publish b n k).haz = k.haz := rfl

end

/-- The other bank of two is another bank. -/
theorem one_sub_ne (x : BitVec 1) : 1 - x ≠ x := by revert x; decide

end Sys2Proof.Machine
end

