-- ==== Sys2Proof/Laws/Step.lean ====
section
/-! SUPPORT. What an event and a step can do, said once: `exec_eq` gives an event as its effect on the block's record
(`blockEffect`), its response (`busResponse`) and the draws it hands out (`drawsOf`); `step_next` says what a step adds. -/

namespace Sys2Proof.Machine

open Sys2Proof

/-- What an event does to the block's record on a build; `none` where it would write storage the block does not have. -/
def blockEffect (b : Build) (k : Block) : Instr → Option Block
  | .rxcByte d _ _ => if k.en then rxcByte b d k else some k
  | .rxcEdge _ => some (if k.en then rxcEdge k else k)
  | .rxcTick => some (if k.en then rxcTick b k else k)
  | .busrPop => some (if k.ready then takeFrame k else k)
  | .buswCtrl w => some (writeCtrl (wdataBit w 0) (wdataBit w 1) (wdataBit w 2) k)
  | .buswIdleThr w => some (writeIdleThr (wdataHalf w) k)
  | .buswStatus w => some (clearSticky (wdataBit w 2) (wdataBit w 3) (wdataBit w 4) k)
  | .buswRelease w => some (writeRelease (wdataBit w 0) k)
  | .syncSet => some (syncSet k)
  | .syncRel => some (syncRel k)
  | .rst => some Block.reset
  | .rxcNop | .busrCtrl | .busrIdleThr | .busrStatus | .busrRelease | .busrRxLevel | .busrIdleCnt | .busrConfig | .busrData _
  | .busrRsvd _ | .busrMisaligned _ | .busrBadsize _ _ | .buswPop _ | .buswRxLevel _ | .buswIdleCnt _ | .buswConfig _
  | .buswData _ _ | .buswRsvd _ _ | .buswMisaligned _ _ | .buswBadsize _ _ _ => some k

/-- The response of a bus event (R74); `none` for an event that is no bus access. -/
def busResponse (s : State) : Instr → Option Response
  | .rxcNop | .rxcByte _ _ _ | .rxcEdge _ | .rxcTick | .syncSet | .syncRel | .rst => none
  | .busrCtrl => some (.okayRead (ctrlWord s.blk))
  | .busrIdleThr => some (.okayRead (halfWord s.blk.idleThr))
  | .busrStatus => some (.okayRead (statusWord s.blk (diagnostic s s.blk.rxs.enc)))
  | .busrPop => some (.okayRead (if s.blk.ready then popWord s.blk.mbLen else 0))
  | .busrRelease => some (.okayRead 0)
  | .busrRxLevel => some (.okayRead (halfWord (diagnostic s s.blk.wrPtr)))
  | .busrIdleCnt => some (.okayRead (halfWord (diagnostic s s.blk.idleCnt)))
  | .busrConfig => some (.okayRead (configWord s.build))
  | .busrData k => some (.okayRead (dataWord s k))
  | .busrRsvd _ | .busrMisaligned _ | .busrBadsize _ _ | .buswRsvd _ _ | .buswMisaligned _ _ | .buswBadsize _ _ _ => some .err
  | .buswCtrl _ | .buswIdleThr _ | .buswStatus _ | .buswPop _ | .buswRelease _ | .buswRxLevel _ | .buswIdleCnt _
  | .buswConfig _ | .buswData _ _ => some .okayWrite

/-- How many draws an event hands out: four for a data word, one for a diagnostic field in ASYNC mode. -/
def drawsOf (b : Build) : Instr → Nat
  | .busrData _ => 4
  | .busrStatus | .busrRxLevel | .busrIdleCnt => if b.clocking = .async then 1 else 0
  | _ => 0

/-- A state after an event, field by field. -/
def afterEvent (s : State) (i : Instr) (k : Block) : State where
  blk    := k
  build  := s.build
  events := s.events
  resp   := (busResponse s i).or s.resp
  drawn  := s.drawn + drawsOf s.build i

theorem rxCycle_eq (s : State) (e : Option Block) :
    rxCycle s e =
      match (if s.blk.en then e else some s.blk) with
      | some k => .next { s with blk := k }
      | none => .fault .noSuchBankByte := by
  unfold rxCycle
  split
  · split <;> rfl
  · rfl

theorem respondDiagnostic_eq (w : Word) (s : State) :
    respondDiagnostic w s =
      .next { s with resp := some (.okayRead w), drawn := s.drawn + (if s.build.clocking = .async then 1 else 0) } := by
  unfold respondDiagnostic
  split <;> rename_i h <;> simp [h, respondOnly, State.respond, State.spend]

/-- Every event, at once: its effect on the block, its response, its draws; it stops only where the effect does not exist. -/
theorem exec_eq (i : Instr) (s : State) :
    exec i s =
      match blockEffect s.build s.blk i with
      | some k => .next (afterEvent s i k)
      | none => .fault .noSuchBankByte := by
  cases i with
  | rxcNop => simp only [exec, execRxcNop, rxCycle_eq, blockEffect, ite_self]; rfl
  | rxcByte d e t => simp only [exec, execRxcByte, rxCycle_eq, blockEffect]; rfl
  | rxcEdge t => simp only [exec, execRxcEdge, rxCycle_eq, blockEffect]; cases s.blk.en <;> rfl
  | rxcTick => simp only [exec, execRxcTick, rxCycle_eq, blockEffect]; cases s.blk.en <;> rfl
  | busrStatus => simp only [exec, execBusrStatus, respondDiagnostic_eq]; rfl
  | busrRxLevel => simp only [exec, execBusrRxLevel, respondDiagnostic_eq]; rfl
  | busrIdleCnt => simp only [exec, execBusrIdleCnt, respondDiagnostic_eq]; rfl
  | busrPop =>
    cases h : s.blk.ready <;> simp only [exec, execBusrPop, blockEffect, afterEvent, busResponse, h] <;> rfl
  | _ => rfl

/-- What holds of a next state: its record is the event's effect, its build and events are as before. -/
theorem exec_next {i : Instr} {s t : State} (h : exec i s = .next t) :
    blockEffect s.build s.blk i = some t.blk ∧ t.build = s.build ∧ t.events = s.events ∧
      t.resp = (busResponse s i).or s.resp ∧ t.drawn = s.drawn + drawsOf s.build i := by
  rw [exec_eq] at h
  split at h
  · rename_i k hk
    cases h
    exact ⟨hk, rfl, rfl, rfl, rfl⟩
  · cases h

/-- An event whose effect exists answers a next state. -/
theorem exec_of_effect {i : Instr} {s : State} {k : Block} (h : blockEffect s.build s.blk i = some k) :
    exec i s = .next (afterEvent s i k) := by
  rw [exec_eq, h]

/-- No event is refused. -/
theorem exec_ne_refused (i : Instr) (s : State) (r : Refusal) : exec i s ≠ .refused r := by
  rw [exec_eq]; split <;> simp

/-- A step that answers a next state has decoded an event and taken it. -/
theorem step_next {s t : State} (h : step s = .next t) :
    ∃ i rest, decode s.build s.events = .ok (i, rest) ∧ exec i (s.beginEvent rest) = .next t := by
  unfold step at h
  split at h
  · rename_i i rest hd; exact ⟨i, rest, hd, h⟩
  · cases h

end Sys2Proof.Machine
end

