-- ==== Sys2Proof/Tests/Slice0.lean ====
section
/-! SUPPORT. Tests of the model on fixed values: ill-formed events, words written out from spec/30_encoding.md, one or two steps of every
event (the expected values are those of spec/95_test_vectors.md, named by their ids, or of a rule's own example), and for every
obligation with hypotheses a witness that meets them. -/

namespace Sys2Proof.Tests

open Sys2Proof Sys2Proof.Machine

/-! ### Builds and states -/

def double16 : Build := { capLess1 := 15, buffering := .double, clocking := .sameClock }
def double4 : Build := { capLess1 := 3, buffering := .double, clocking := .sameClock }
def shared8 : Build := { capLess1 := 7, buffering := .shared, clocking := .sameClock }
def async13 : Build := { capLess1 := 12, buffering := .shared, clocking := .async }
def largest : Build := { capLess1 := 65279, buffering := .double, clocking := .async }

/-- A machine of build `b` with record `k`, nothing driven at it. -/
def mk (b : Build) (k : Block) : State := { blk := k, build := b, events := [], resp := none, drawn := 0 }

/-- The record of setup `E16` of spec/95_test_vectors.md. -/
def e16 : Block := { Block.reset with en := true, idleThr := 2 }

/-- `E16` in a frame of one byte, one tick after it (RX10's start). -/
def oneByte : Block := { e16 with rxs := .accum, wrPtr := 1, idleCnt := 1, bank := [(0, 0x41)] }

/-- `E(4, DOUBLE, SAME_CLOCK, 2)` with the bank full (RX18's start). -/
def bankFull : Block :=
  { e16 with rxs := .accum, wrPtr := 4, bank := [(0, 0x41), (1, 0x42), (2, 0x43), (3, 0x44)] }

/-- After RX18. -/
def discarding : Block := { bankFull with rxs := .discard, ovf := true }

/-- After RX7: the frame `AB` published, not yet delivered. -/
def announced : Block :=
  { e16 with bank := [(0, 0x41), (1, 0x42)], mbLen := 2, accBank := 1, slotFull := true, setPending := true }

/-- After SY1: the frame `AB` ready. -/
def readyAB : Block := { announced with setPending := false, ready := true }

/-- The frame `AB` held, then released. -/
def heldAB : Block := { readyAB with ready := false, held := true }
def releasingAB : Block := { heldAB with held := false, relPending := true }

/-- The frame `AB` ready, and `XY` in progress in the other bank, one tick before its expiry (RX23). -/
def overlapped : Block :=
  { readyAB with rxs := .accum, wrPtr := 2, idleCnt := 1, bank := [(0, 0x41), (1, 0x42), (65536, 0x58), (65537, 0x59)] }

/-- SHARED: the frame `[A]` ready, before RX25's byte. -/
def sharedReady : Block :=
  { e16 with bank := [(0, 0x5B), (1, 0x41), (2, 0x5D)], mbLen := 3, slotFull := true, ready := true }

/-- SHARED: after RX25. -/
def sharedDirty : Block :=
  { sharedReady with
    rxs := .accum, wrPtr := 1, bank := [(0, 0x58), (1, 0x41), (2, 0x5D)], slotDirty := true, haz := true }

/-- BD1: the frame `ABCD` held in a bank of four bytes. -/
def heldABCD : Block :=
  { e16 with
    bank := [(0, 0x41), (1, 0x42), (2, 0x43), (3, 0x44)], mbLen := 4, accBank := 1, slotFull := true, held := true }

/-- The record after an event that answers a next state. -/
def blkAfter (i : Instr) (s : State) : Option Block :=
  match exec i s with
  | .next t => some t.blk
  | _ => none

/-- The response of an event that answers a next state. -/
def respAfter (i : Instr) (s : State) : Option Response :=
  match exec i s with
  | .next t => t.resp
  | _ => none

/-- What the decoder reads on a build; the error where it reads nothing. -/
def reads (b : Build) (ws : List Word) : Instr ⊕ DecodeError :=
  match decode b ws with
  | .ok (i, _) => .inl i
  | .error e => .inr e

/-! ### Well-formedness: an ill-formed term for each check -/

theorem test_wf_busrData : Instr.wf double16 (.busrData 4) = false := by decide
theorem test_wf_buswData : Instr.wf double16 (.buswData 4 0) = false := by decide
theorem test_wf_busrRsvd_named : Instr.wf double16 (.busrRsvd 0x001C) = false := by decide
theorem test_wf_busrRsvd_window : Instr.wf double16 (.busrRsvd 0x010C) = false := by decide
theorem test_wf_busrRsvd_misaligned : Instr.wf double16 (.busrRsvd 0x0021) = false := by decide
theorem test_wf_buswRsvd : Instr.wf double16 (.buswRsvd 0x0100 0) = false := by decide
theorem test_wf_busrMisaligned : Instr.wf double16 (.busrMisaligned 0x0020) = false := by decide
theorem test_wf_buswMisaligned : Instr.wf double16 (.buswMisaligned 0xFFFC 0) = false := by decide

/-! ### Decoding: words written out from R71, R72, R75, R76 and the map of R79, the fields separated -/

-- CLASS 0, must-be-0, T E V, D (R71)
theorem test_decode_rxc :
    reads double16 [0b0000_00000000000000000_000_11111111] = .inl .rxcNop ∧                       -- RX14
    reads double16 [0b0000_00000000000000000_111_01000010] = .inl (.rxcByte 0x42 true true) ∧      -- DC10
    reads double16 [0b0000_00000000000000000_110_01010101] = .inl (.rxcEdge true) ∧                -- DC11
    reads double16 [0b0000_00000000000000000_010_00000000] = .inl (.rxcEdge false) ∧               -- RX9
    reads double16 [0b0000_00000000000000000_100_10101010] = .inl .rxcTick := by decide            -- DC12

-- CLASS 1, must-be-0, SIZE, must-be-0, OFFSET (R72)
theorem test_decode_busr_registers :
    reads double16 [0b0001_00_10_00000000_0000000000000000] = .inl .busrCtrl ∧
    reads double16 [0b0001_00_10_00000000_0000000000000100] = .inl .busrIdleThr ∧
    reads double16 [0b0001_00_10_00000000_0000000000001000] = .inl .busrStatus ∧
    reads double16 [0b0001_00_10_00000000_0000000000001100] = .inl .busrPop ∧
    reads double16 [0b0001_00_10_00000000_0000000000010000] = .inl .busrRelease ∧
    reads double16 [0b0001_00_10_00000000_0000000000010100] = .inl .busrRxLevel ∧
    reads double16 [0b0001_00_10_00000000_0000000000011000] = .inl .busrIdleCnt ∧
    reads double16 [0b0001_00_10_00000000_0000000000011100] = .inl .busrConfig := by decide

theorem test_decode_busr_rest :
    reads double16 [0b0001_00_10_00000000_0000000100001100] = .inl (.busrData 3) ∧                 -- 0x10C, the last word
    reads double16 [0b0001_00_10_00000000_0000000100010000] = .inl (.busrRsvd 0x110) ∧             -- BE9
    reads double16 [0b0001_00_10_00000000_0000000000100000] = .inl (.busrRsvd 0x20) ∧              -- BE7
    reads double16 [0b0001_00_10_00000000_1111111111111110] = .inl (.busrMisaligned 0xFFFE) ∧      -- DC14
    reads double16 [0b0001_00_00_00000000_1111111111111111] = .inl (.busrBadsize .bits8 0xFFFF) ∧  -- DC13
    reads double16 [0b0001_00_01_00000000_0000000000001100] = .inl (.busrBadsize .bits16 0x0C) :=  -- BE2
  by decide

-- CLASS 2, as CLASS 1, then WDATA (R72)
theorem test_decode_busw_registers :
    reads double16 [0b0010_00_10_00000000_0000000000000000, 7] = .inl (.buswCtrl 7) ∧
    reads double16 [0b0010_00_10_00000000_0000000000000100, 7] = .inl (.buswIdleThr 7) ∧
    reads double16 [0b0010_00_10_00000000_0000000000001000, 7] = .inl (.buswStatus 7) ∧
    reads double16 [0b0010_00_10_00000000_0000000000001100, 7] = .inl (.buswPop 7) ∧
    reads double16 [0b0010_00_10_00000000_0000000000010000, 7] = .inl (.buswRelease 7) ∧
    reads double16 [0b0010_00_10_00000000_0000000000010100, 7] = .inl (.buswRxLevel 7) ∧
    reads double16 [0b0010_00_10_00000000_0000000000011000, 7] = .inl (.buswIdleCnt 7) ∧
    reads double16 [0b0010_00_10_00000000_0000000000011100, 7] = .inl (.buswConfig 7) := by decide  -- DC15

theorem test_decode_busw_rest :
    reads double16 [0b0010_00_10_00000000_0000000100000100, 7] = .inl (.buswData 1 7) ∧
    reads double16 [0b0010_00_10_00000000_0000000011111100, 7] = .inl (.buswRsvd 0xFC 7) ∧         -- BE8
    reads double16 [0b0010_00_10_00000000_0000000000000001, 7] = .inl (.buswMisaligned 1 7) ∧      -- BE5
    reads double16 [0b0010_00_00_00000000_0000000000010000, 7] = .inl (.buswBadsize .bits8 0x10 7) :=  -- BE3
  by decide

-- CLASS 3, must-be-0, W (R75); CLASS 4, must-be-0 (R76)
theorem test_decode_sync_rst :
    reads double16 [0b0011_000000000000000000000000000_0] = .inl .syncSet ∧
    reads double16 [0b0011_000000000000000000000000000_1] = .inl .syncRel ∧
    reads double16 [0b0100_0000000000000000000000000000] = .inl .rst := by decide

-- DC1 to DC9, an empty stream, and a write with no operand
theorem test_decode_refused :
    reads double16 [0x50000000] = .inr .reservedClass ∧ reads double16 [0xF0000000] = .inr .reservedClass ∧
    reads double16 [0x00000800] = .inr .mustBeZero ∧ reads double16 [0x08000000] = .inr .mustBeZero ∧
    reads double16 [0x13000000] = .inr .reservedSize ∧ reads double16 [0x12010000] = .inr .mustBeZero ∧
    reads double16 [0x16000000] = .inr .mustBeZero ∧ reads double16 [0x30000002] = .inr .mustBeZero ∧
    reads double16 [0x40000001] = .inr .mustBeZero ∧ reads double16 [] = .inr .noEvent ∧
    reads double16 [0x22000000] = .inr .missingWdata := by decide

-- R8, R67: the window of the largest build ends inside the offset space; 0xFFFC is its last word
theorem test_decode_largest : reads largest [0x1200FFFC] = .inl (.busrData 16319) := by decide

/-! ### Receiver cycles -/

theorem test_rxcNop : blkAfter .rxcNop (mk double16 oneByte) = some oneByte := by decide            -- RX3

theorem test_rxcByte_overlap :                                                                     -- RX25
    blkAfter (.rxcByte 0x58 false false) (mk shared8 sharedReady) = some sharedDirty := by decide

theorem test_rxcByte_overflow :                                                                    -- RX18
    blkAfter (.rxcByte 0x45 false false) (mk double4 bankFull) = some discarding := by decide

theorem test_rxcEdge : blkAfter (.rxcEdge true) (mk double16 oneByte) = some { oneByte with idleCnt := 0 } := by
  decide                                                                                           -- RX11

theorem test_rxcTick_publishes :                                                                   -- RX7
    blkAfter .rxcTick (mk double16 { announced with
      rxs := .accum, wrPtr := 2, idleCnt := 1, mbLen := 0, accBank := 0, slotFull := false, setPending := false }) =
      some announced := by decide

theorem test_rxcTick_drops :                                                                       -- RX23
    blkAfter .rxcTick (mk double16 overlapped) =
      some { overlapped with rxs := .idle, wrPtr := 0, idleCnt := 0, mboxOvr := true } := by decide

/-! ### Synchronizer steps and reset -/

theorem test_syncSet : blkAfter .syncSet (mk double16 announced) = some readyAB := by decide        -- SY1
theorem test_syncRel : blkAfter .syncRel (mk double16 releasingAB) =
    some { releasingAB with slotFull := false, relPending := false } := by decide                   -- SY4
theorem test_rst : blkAfter .rst (mk shared8 sharedDirty) = some Block.reset := by decide           -- RS1, RS2

/-! ### Bus reads -/

theorem test_busrCtrl :                                                                            -- BC2, and R48's order of bits
    respAfter .busrCtrl (mk double16 { e16 with errIe := true }) = some (.okayRead 0x00000005) := by decide
theorem test_busrIdleThr : respAfter .busrIdleThr State.reset = some (.okayRead 0x0000FFFF) := by decide  -- BT1
theorem test_busrStatus :                                                                          -- BS2
    respAfter .busrStatus (mk double16 { readyAB with ovf := true, mboxOvr := true, rxs := .accum, errIe := true }) =
      some (.okayRead 0x000000AD) := by decide
theorem test_busrStatus_discard :                                                                  -- BS4
    respAfter .busrStatus (mk double4 discarding) = some (.okayRead 0x00000044) := by decide
theorem test_busrPop_takes :                                                                       -- BP1
    respAfter .busrPop (mk double16 { readyAB with mbLen := 13 }) = some (.okayRead 0x8000000D) ∧
    blkAfter .busrPop (mk double16 readyAB) = some heldAB := by decide
theorem test_busrPop_announced :                                                                   -- BP3
    respAfter .busrPop (mk double16 announced) = some (.okayRead 0) ∧
    blkAfter .busrPop (mk double16 announced) = some announced := by decide
theorem test_busrRelease : respAfter .busrRelease (mk double16 heldAB) = some (.okayRead 0) := by decide  -- BR1
theorem test_busrRxLevel :                                                                         -- BL2
    respAfter .busrRxLevel (mk double4 discarding) = some (.okayRead 0x00000004) := by decide
theorem test_busrIdleCnt :                                                                         -- BI1
    respAfter .busrIdleCnt (mk double16 oneByte) = some (.okayRead 0x00000001) := by decide
theorem test_busrConfig :                                                                          -- BF2, BF3
    respAfter .busrConfig (mk async13 e16) = some (.okayRead 0x0002000D) ∧
    respAfter .busrConfig (mk largest e16) = some (.okayRead 0x0003FF00) := by decide
theorem test_busrData :                                                                            -- BD1
    respAfter (.busrData 0) (mk double4 heldABCD) = some (.okayRead 0x44434241) := by decide
theorem test_busrData_dirty :                                                                      -- BD7
    (List.range 4).map (windowByte sharedDirty) = [none, none, none, none] := by decide
theorem test_busrRsvd : respAfter (.busrRsvd 0x20) (mk double16 e16) = some .err := by decide       -- BE7
theorem test_busrMisaligned :                                                                      -- BE4
    respAfter (.busrMisaligned 0x0D) (mk double16 readyAB) = some .err ∧
    blkAfter (.busrMisaligned 0x0D) (mk double16 readyAB) = some readyAB := by decide
theorem test_busrBadsize :                                                                         -- BE2
    respAfter (.busrBadsize .bits16 0x0C) (mk double16 readyAB) = some .err ∧
    blkAfter (.busrBadsize .bits16 0x0C) (mk double16 readyAB) = some readyAB := by decide

/-! ### Bus writes -/

theorem test_buswCtrl_disable :                                                                    -- BC4
    blkAfter (.buswCtrl 0) (mk double16 oneByte) =
      some { oneByte with en := false, rxs := .idle, wrPtr := 0, idleCnt := 0 } := by decide
theorem test_buswCtrl_reserved :                                                                   -- BC3
    blkAfter (.buswCtrl 0xFFFFFFF8) State.reset = some Block.reset := by decide
theorem test_buswIdleThr :                                                                         -- BT2
    blkAfter (.buswIdleThr 0x12345) State.reset = some { Block.reset with idleThr := 0x2345 } := by decide
theorem test_buswIdleThr_enabled : blkAfter (.buswIdleThr 5) (mk double16 e16) = some e16 := by decide  -- BT3
theorem test_buswStatus :                                                                          -- BS7
    blkAfter (.buswStatus 4) (mk double16 { readyAB with ovf := true, mboxOvr := true }) =
      some { readyAB with mboxOvr := true } := by decide
theorem test_buswStatus_haz :                                                                      -- BS9
    blkAfter (.buswStatus 0x10) (mk shared8 sharedDirty) = some { sharedDirty with haz := false } := by decide
theorem test_buswPop : blkAfter (.buswPop 0xFFFFFFFF) (mk double16 readyAB) = some readyAB := by decide  -- BP7
theorem test_buswRelease : blkAfter (.buswRelease 3) (mk double16 heldAB) = some releasingAB := by decide  -- BR5
theorem test_buswRelease_bit0 : blkAfter (.buswRelease 0xFFFFFFFE) (mk double16 heldAB) = some heldAB := by
  decide                                                                                           -- BR4
theorem test_buswRxLevel : blkAfter (.buswRxLevel 0) (mk double16 oneByte) = some oneByte := by decide  -- BW1
theorem test_buswIdleCnt : blkAfter (.buswIdleCnt 0) (mk double16 oneByte) = some oneByte := by decide  -- BW1
theorem test_buswConfig : respAfter (.buswConfig 0) (mk double16 oneByte) = some .okayWrite := by decide  -- BW1
theorem test_buswData : blkAfter (.buswData 0 0) (mk double4 heldABCD) = some heldABCD := by decide  -- BD9
theorem test_buswRsvd : respAfter (.buswRsvd 0xFC 0) (mk double16 e16) = some .err := by decide     -- BE8
theorem test_buswMisaligned :                                                                      -- BE5
    respAfter (.buswMisaligned 1 1) State.reset = some .err ∧
    blkAfter (.buswMisaligned 1 1) State.reset = some Block.reset := by decide
theorem test_buswBadsize :                                                                         -- BE3
    respAfter (.buswBadsize .bits8 0x10 1) (mk double16 heldAB) = some .err ∧
    blkAfter (.buswBadsize .bits8 0x10 1) (mk double16 heldAB) = some heldAB := by decide

/-! ### The first step after reset -/

-- a table word, put where the next event is taken, is the event the step takes
theorem test_withFetchWord :
    decodeTableWord 64 0x0000000322000000 = some (.buswCtrl 3) ∧
    step (State.reset.withFetchWord 64 0x0000000322000000) = exec (.buswCtrl 3) State.reset := ⟨by decide, rfl⟩

/-! ### States that meet the invariant -/

theorem cells_exist {b : Build} {m : Memory}
    (h : ∀ c ∈ m, bankExists b (BitVec.ofNat 1 (c.1 / 65536)) (c.1 % 65536) = true ∧
      c.1 = bankAddr (BitVec.ofNat 1 (c.1 / 65536)) (c.1 % 65536)) :
    ∀ c ∈ m, ∃ bk i, bankExists b bk i = true ∧ c.1 = bankAddr bk i := fun c hc => ⟨_, _, h c hc⟩

theorem inv_overlapped : overlapped.Inv double16 := by
  constructor <;> first | exact cells_exist (by decide) | decide
theorem inv_sharedDirty : sharedDirty.Inv shared8 := by
  constructor <;> first | exact cells_exist (by decide) | decide
theorem inv_discarding : discarding.Inv double4 := by
  constructor <;> first | exact cells_exist (by decide) | decide
theorem inv_heldABCD : heldABCD.Inv double4 := by
  constructor <;> first | exact cells_exist (by decide) | decide
theorem inv_releasingAB : releasingAB.Inv double16 := by
  constructor <;> first | exact cells_exist (by decide) | decide

/-- RX7's start: the frame `AB` in progress, the slot empty, one tick before the expiry. -/
def aboutToPublish : Block :=
  { e16 with rxs := .accum, wrPtr := 2, idleCnt := 1, bank := [(0, 0x41), (1, 0x42)] }

theorem inv_aboutToPublish : aboutToPublish.Inv double16 := by
  constructor <;> first | exact cells_exist (by decide) | decide

/-! ### Witnesses: for each obligation with hypotheses, values that meet them, at the boundaries of its clauses -/

theorem witness_DecodeOfEncodeIsTheEvent :
    Instr.wf double16 (.busrData 3) = true ∧ Instr.wf double16 (.busrRsvd 0x110) = true ∧
    Instr.wf double16 (.buswRsvd 0xFC 0) = true ∧ Instr.wf double16 (.busrMisaligned 0xFFFF) = true := by decide

theorem witness_DecodedEventIsWellFormed :
    decode double16 [0x1200010C] = .ok (.busrData 3, []) ∧ decode double16 [0x12000110] = .ok (.busrRsvd 0x110, []) ∧
    decode double16 [0x2200FFFD, 1] = .ok (.buswMisaligned 0xFFFD 1, []) := ⟨rfl, rfl, rfl⟩

-- V = 0 with D dropped, V = 1, a bus write with its operand
theorem witness_EncodeOfDecodedIsTheWord :
    decode double16 [0x000004AA] = .ok (.rxcTick, []) ∧ decode double16 [0x000001AA] = .ok (.rxcByte 0xAA false false, []) ∧
    decode double16 [0x22000010, 1] = .ok (.buswRelease 1, []) := ⟨rfl, rfl, rfl⟩

-- each branch: the three sizes, misaligned, the last register, and both ends of the two reserved ranges and of the window
theorem witness_BusAccessIsCheckedInOrder :
    (0 : BitVec 2) ≠ 3 ∧ (1 : BitVec 2) ≠ 3 ∧ (2 : BitVec 2) ≠ 3 ∧
    decode double16 [busWord 1 0 0x0001] = .ok (.busrBadsize .bits8 0x0001, []) ∧
    decode double16 [busWord 1 2 0x0001] = .ok (.busrMisaligned 0x0001, []) ∧
    decode double16 [busWord 1 2 0x001C] = .ok (.busrConfig, []) ∧
    decode double16 [busWord 1 2 0x0020] = .ok (.busrRsvd 0x0020, []) ∧
    decode double16 [busWord 1 2 0x00FC] = .ok (.busrRsvd 0x00FC, []) ∧
    decode double16 [busWord 1 2 0x0100] = .ok (.busrData 0, []) ∧
    decode double16 [busWord 1 2 0x010C] = .ok (.busrData 3, []) ∧
    decode double16 [busWord 1 2 0x0110] = .ok (.busrRsvd 0x0110, []) :=
  ⟨by decide, by decide, by decide, rfl, rfl, rfl, rfl, rfl, rfl, rfl, rfl⟩

/-- `E16` with a byte on the line and a bus write behind it. -/
def driven : State := { mk double16 e16 with events := [0x00000141, 0x22000010, 1] }

theorem witness_StepTakesTheDecodedEvent :
    decode driven.build driven.events = .ok (.rxcByte 0x41 false false, [0x22000010, 1]) := rfl

theorem witness_StepTakesTheEncodedEvent :
    Instr.wf driven.build (.rxcByte 0x41 false false) = true ∧
    driven.events = encode (.rxcByte 0x41 false false) ++ [0x22000010, 1] := by decide

-- a word of no event, a word of one, and a bus write with its operand
theorem witness_StepRefusesExactlyWordsOfNoEvent :
    (∃ s : State, s.events = [0x50000000] ∧ spellsNoEvent 0x50000000) ∧
    (∃ s : State, s.events = [0x00000141] ∧ ¬spellsNoEvent 0x00000141) ∧
    (∃ s : State, s.events = [0x23000000, 1] ∧ ((0x23000000 : Word).extractLsb' 28 4 = 2 → ([1] : List Word) ≠ []) ∧
      spellsNoEvent 0x23000000) :=
  ⟨⟨{ driven with events := [0x50000000] }, rfl, by unfold spellsNoEvent; decide⟩,
    ⟨{ driven with events := [0x00000141] }, rfl, by unfold spellsNoEvent; decide⟩,
    ⟨{ driven with events := [0x23000000, 1] }, rfl, by decide, by unfold spellsNoEvent; decide⟩⟩

theorem witness_StepKeepsBuildAndTakesOneEvent : ∃ t, step driven = .next t := ⟨_, rfl⟩

theorem witness_DisabledReceiverIgnoresCycles :
    State.reset.blk.en = false ∧ Instr.isRxc (.rxcByte 0x41 false true) = true := by decide         -- RX1

-- in both buffering modes, the SHARED slot full
theorem witness_FirstByteStartsFrame :
    (e16.en = true ∧ e16.rxs = .idle ∧ (double16.buffering = .shared → e16.accBank = 0)) ∧
    (sharedReady.en = true ∧ sharedReady.rxs = .idle ∧ (shared8.buffering = .shared → sharedReady.accBank = 0)) := by decide

-- the last byte that fits: `wr_ptr = FRAME_CAP - 1`
theorem witness_ByteWithRoomIsAppended :
    ∃ k : Block, k.en = true ∧ k.rxs = .accum ∧ k.wrPtr.toNat + 1 = double4.frameCap ∧ k.wrPtr.toNat < double4.frameCap ∧
      (double4.buffering = .shared → k.accBank = 0) := ⟨{ bankFull with wrPtr := 3 }, by decide⟩

-- SHARED and full; DOUBLE and full; SHARED and empty
theorem witness_OverlapIsMarkedWhenAByteIsStored :
    (sharedDirty.en = true ∧ sharedDirty.rxs = .accum ∧ sharedDirty.wrPtr.toNat < shared8.frameCap ∧
      sharedDirty.accBank = 0 ∧ shared8.buffering = .shared ∧ sharedDirty.slotFull = true) ∧
    (overlapped.en = true ∧ overlapped.rxs = .accum ∧ overlapped.wrPtr.toNat < double16.frameCap ∧
      double16.buffering = .double ∧ overlapped.slotFull = true) ∧
    (e16.en = true ∧ e16.rxs = .idle ∧ e16.accBank = 0 ∧ shared8.buffering = .shared ∧ e16.slotFull = false) := by decide

theorem witness_ByteAtFullBankOverflows :
    bankFull.en = true ∧ bankFull.rxs = .accum ∧ bankFull.wrPtr.toNat = double4.frameCap := by decide

theorem witness_ByteInDiscardIsDropped : discarding.en = true ∧ discarding.rxs = .discard := by decide

-- a state no run reaches, in which a byte stops the machine
theorem witness_OnlyAByteWithoutItsBankStops :
    exec (.rxcByte 0x41 false false) (mk shared8 { e16 with accBank := 1 }) = .fault .noSuchBankByte := rfl

-- in IDLE, in ACCUM, in DISCARD
theorem witness_EdgeRestartsTheIdleInterval :
    (e16.en = true ∧ e16.rxs = .idle) ∧ (oneByte.en = true ∧ oneByte.rxs = .accum) ∧
    (discarding.en = true ∧ discarding.rxs = .discard) := by decide

-- IDLE; below the threshold; at it with the slot empty, with it full, and in DISCARD; thresholds 0 and 0xFFFF
theorem witness_TickCountsOrEndsTheFrame :
    (e16.en = true ∧ e16.rxs = .idle) ∧
    (bankFull.en = true ∧ ¬max bankFull.idleThr.toNat 1 ≤ min (bankFull.idleCnt.toNat + 1) 0xFFFF) ∧
    (oneByte.en = true ∧ max oneByte.idleThr.toNat 1 ≤ min (oneByte.idleCnt.toNat + 1) 0xFFFF ∧ oneByte.slotFull = false) ∧
    (overlapped.en = true ∧ max overlapped.idleThr.toNat 1 ≤ min (overlapped.idleCnt.toNat + 1) 0xFFFF ∧
      overlapped.slotFull = true) ∧
    (∃ k : Block, k.en = true ∧ k.rxs = .discard ∧ max k.idleThr.toNat 1 ≤ min (k.idleCnt.toNat + 1) 0xFFFF) ∧
    (∃ k : Block, k.idleThr = 0 ∧ k.idleCnt = 0 ∧ k.rxs = .accum ∧ max k.idleThr.toNat 1 ≤ min (k.idleCnt.toNat + 1) 0xFFFF) ∧
    (∃ k : Block, k.idleThr = 0xFFFF ∧ k.idleCnt = 0xFFFE ∧ k.rxs = .accum ∧
      max k.idleThr.toNat 1 ≤ min (k.idleCnt.toNat + 1) 0xFFFF) :=
  ⟨by decide, by decide, by decide, by decide, ⟨{ discarding with idleCnt := 1 }, by decide⟩,
    ⟨{ oneByte with idleThr := 0, idleCnt := 0 }, by decide⟩, ⟨{ oneByte with idleThr := 0xFFFF, idleCnt := 0xFFFE }, by decide⟩⟩

-- the last count below the threshold, and the threshold
theorem witness_QuietTicksEndTheFrameAtTheThreshold :
    bankFull.en = true ∧ bankFull.rxs ≠ .idle ∧ bankFull.idleCnt.toNat < max bankFull.idleThr.toNat 1 ∧
    bankFull.idleCnt.toNat + 1 < max bankFull.idleThr.toNat 1 ∧
    bankFull.idleCnt.toNat + 2 = max bankFull.idleThr.toNat 1 := by decide

-- a frame starts; one ends by a tick, one by a disable
theorem witness_FramesStartAndEndOnlyByTheirEvents :
    (∃ t, exec (.rxcByte 0x41 false false) (mk double16 e16) = .next t ∧ e16.rxs = .idle ∧ t.blk.rxs ≠ .idle) ∧
    (∃ t, exec .rxcTick (mk double16 oneByte) = .next t ∧ oneByte.rxs ≠ .idle ∧ t.blk.rxs = .idle) ∧
    (∃ t, exec (.buswCtrl 0) (mk double16 oneByte) = .next t ∧ oneByte.rxs ≠ .idle ∧ t.blk.rxs = .idle) :=
  ⟨⟨_, rfl, by decide⟩, ⟨_, rfl, by decide⟩, ⟨_, rfl, by decide⟩⟩

theorem witness_NoEmptyFrameIsPublished :
    aboutToPublish.Inv double16 ∧ ∃ t, exec .rxcTick (mk double16 aboutToPublish) = .next t ∧
      aboutToPublish.slotFull = false ∧ t.blk.slotFull = true := ⟨inv_aboutToPublish, _, rfl, by decide⟩

-- a frame of two bytes, about to be published; and one rejected, in DISCARD
theorem witness_PublishedFrameIsTheBytesReceived :
    (aboutToPublish.Inv double16 ∧ aboutToPublish.holdsFrame double16 [0x41, 0x42] ∧
      ∃ t, exec .rxcTick (mk double16 aboutToPublish) = .next t ∧ aboutToPublish.slotFull = false ∧ t.blk.slotFull = true) ∧
    (discarding.Inv double4 ∧ discarding.holdsFrame double4 [0x41, 0x42, 0x43, 0x44, 0x45] ∧
      ∃ t, exec (.rxcByte 0x46 false false) (mk double4 discarding) = .next t) :=
  ⟨⟨inv_aboutToPublish, ⟨rfl, by decide, by decide⟩, _, rfl, by decide⟩,
    ⟨inv_discarding, (by decide : 4 < 5), _, rfl⟩⟩

theorem witness_SyncSetDeliversTheFlag : announced.setPending = true ∧ e16.setPending = false := by decide
theorem witness_SyncRelFreesTheSlot : releasingAB.relPending = true ∧ e16.relPending = false := by decide

-- every phase, every move, and the publish's own condition
theorem witness_MailboxMovesOnlyThroughItsPhases :
    aboutToPublish.inPhase .empty = true ∧ announced.inPhase .announced = true ∧ readyAB.inPhase .ready = true ∧
    heldAB.inPhase .held = true ∧ releasingAB.inPhase .releasing = true ∧
    PhaseMove .empty .announced .rxcTick ∧ PhaseMove .held .releasing (.buswRelease 1) ∧
    (aboutToPublish.en = true ∧ aboutToPublish.rxs = .accum ∧
      max aboutToPublish.idleThr.toNat 1 ≤ aboutToPublish.idleCnt.toNat + 1) :=
  ⟨by decide, by decide, by decide, by decide, by decide, .publish, .release 1 (by decide), by decide⟩

-- DOUBLE, the next frame arriving in the other bank; SHARED, a tick while the slot is dirty; SHARED, a tick while it is clean
theorem witness_PublishedFrameIsStable :
    (overlapped.Inv double16 ∧ ∃ t, exec (.rxcByte 0x5A false false) (mk double16 overlapped) = .next t ∧
      overlapped.slotFull = true ∧ t.blk.slotFull = true) ∧
    (sharedDirty.Inv shared8 ∧ ∃ t, exec .rxcTick (mk shared8 sharedDirty) = .next t ∧
      sharedDirty.slotFull = true ∧ t.blk.slotFull = true ∧ t.blk.slotDirty = true) ∧
    (∃ t, exec .rxcTick (mk shared8 sharedReady) = .next t ∧ sharedReady.slotFull = true ∧ t.blk.slotFull = true ∧
      t.blk.slotDirty = false) :=
  ⟨⟨inv_overlapped, _, rfl, by decide⟩, ⟨inv_sharedDirty, _, rfl, by decide⟩, _, rfl, by decide⟩

-- both clockings, each state of the receiver
theorem witness_StatusRead :
    (double16.clocking = .sameClock ∧ e16.rxs = .idle ∧ oneByte.rxs = .accum ∧ discarding.rxs = .discard) ∧
    async13.clocking = .async := by decide

theorem witness_LevelAndCountRead : double16.clocking = .sameClock ∧ async13.clocking = .async := by decide

theorem witness_AsyncReadsHideTheReceiver :
    async13.clocking = .async ∧ Instr.isBusRead .busrStatus = true ∧
    (∃ t, exec .busrStatus (mk async13 e16) = .next t) ∧
    ∃ u, exec .busrStatus (mk async13 { e16 with rxs := .accum, wrPtr := 3, idleCnt := 1 }) = .next u :=
  ⟨rfl, rfl, ⟨_, rfl⟩, _, rfl⟩

-- another storage that agrees on the frame held
theorem witness_BusSeesOnlyTheMailboxBank :
    Instr.isBusRead (.busrData 0) = true ∧
    (∀ n < heldAB.mbLen.toNat,
      Memory.read [(0, 0x41), (1, 0x42), (2, 0xEE)] (bankAddr heldAB.mbBank n) = bankRead heldAB heldAB.mbBank n) ∧
    (∃ t, exec (.busrData 0) (mk double16 heldAB) = .next t) ∧
    ∃ u, exec (.busrData 0) (mk double16 { heldAB with bank := [(0, 0x41), (1, 0x42), (2, 0xEE)] }) = .next u :=
  ⟨rfl, by decide, ⟨_, rfl⟩, _, rfl⟩

theorem witness_PopTakesTheFrame : readyAB.ready = true ∧ heldAB.ready = false := by decide

theorem witness_SecondPopTakesNothing : ∃ t, exec .busrPop (mk double16 readyAB) = .next t := ⟨_, rfl⟩

-- the last byte of a frame; the first lane past it; a frame not ready; a dirty slot; the last word of the window
theorem witness_DataWindowRead :
    (readyAB.ready = true ∧ readyAB.slotDirty = false ∧ 4 * 0 + 1 < readyAB.mbLen.toNat ∧
      bankRead readyAB readyAB.mbBank (4 * 0 + 1) = some 0x42) ∧
    ¬4 * 0 + 2 < readyAB.mbLen.toNat ∧ ¬(announced.ready = true ∨ announced.held = true) ∧ sharedDirty.slotDirty = true ∧
    3 < (double16.frameCap + 3) / 4 := by decide

-- a data word of no frame, a diagnostic read in ASYNC mode, an event that draws nothing
theorem witness_DrawsAreNumberedInOrder :
    (∃ t, exec (.busrData 0) (mk async13 e16) = .next t ∧ e16.ready = false ∧ e16.held = false) ∧
    (∃ t, exec .busrStatus (mk async13 e16) = .next t ∧ async13.clocking = .async) ∧
    ∃ t, exec .busrStatus (mk double16 e16) = .next t ∧ ¬double16.clocking = .async :=
  ⟨⟨_, rfl, by decide⟩, ⟨_, rfl, by decide⟩, _, rfl, by decide⟩

-- the last byte of the frame `ABCD`
theorem witness_FrameBytesAreDefined :
    heldABCD.Inv double4 ∧ (heldABCD.ready = true ∨ heldABCD.held = true) ∧ heldABCD.slotDirty = false ∧ 3 < 4 ∧
    4 * 0 + 3 < heldABCD.mbLen.toNat := ⟨inv_heldABCD, by decide⟩

theorem witness_OnlyPopReadHasASideEffect : Instr.isBusRead .busrPop = true ∧ Instr.isBusRead (.busrData 0) = true := by
  decide

-- the ends of the misaligned and the reserved offsets
theorem witness_RejectedAccessesChangeNothing :
    (0xFFFF : Half).toNat % 4 ≠ 0 ∧ (0x20 : Half).toNat % 4 = 0 ∧ 0x20 ≤ (0x20 : Half).toNat ∧ (0xFC : Half).toNat ≤ 0xFC ∧
    (0x110 : Half).toNat % 4 = 0 ∧ 0x100 + 4 * ((double16.frameCap + 3) / 4) ≤ (0x110 : Half).toNat := by decide

-- a read, a write, a rejected access, and an event that is none of them
theorem witness_EveryBusEventGivesOneResponse :
    (mk double16 e16).resp = none ∧ (∃ t, exec .busrCtrl (mk double16 e16) = .next t) ∧
    (∃ t, exec (.buswPop 0) (mk double16 e16) = .next t) ∧ (∃ t, exec (.busrRsvd 0x20) (mk double16 e16) = .next t) ∧
    ∃ t, exec .syncSet (mk double16 e16) = .next t := ⟨rfl, ⟨_, rfl⟩, ⟨_, rfl⟩, ⟨_, rfl⟩, _, rfl⟩

theorem witness_IdleThrWrite : Block.reset.en = false ∧ e16.en = true := by decide

-- released; bit 0 clear; nothing held
theorem witness_ReleaseWrite :
    ((1 : Word).getLsbD 0 = true ∧ heldAB.held = true) ∧ (0xFFFFFFFE : Word).getLsbD 0 = false ∧ readyAB.held = false := by
  decide

-- the last data word of a window
theorem witness_ReadOnlyWritesAreIgnored : 3 < (double16.frameCap + 3) / 4 := by decide

theorem witness_ResetKeepsTheModelsFields : ∃ t, exec .rst driven = .next t := ⟨_, rfl⟩

theorem witness_RegistersAfterReset :
    double16.clocking = .sameClock ∧ ∃ t, exec .rst (mk double16 overlapped) = .next t := ⟨rfl, _, rfl⟩

-- the step that publishes
theorem witness_EveryStepKeepsTheInvariant :
    aboutToPublish.Inv double16 ∧ ∃ t, step { mk double16 aboutToPublish with events := [0x00000400] } = .next t :=
  ⟨inv_aboutToPublish, _, rfl⟩

-- the reset state, and one a step away from it in which the receiver is enabled
theorem witness_ReachableStatesMeetTheSpecInvariants :
    Reachable double16 (mk double16 Block.reset) ∧
    ∃ t, Reachable double16 t ∧ t.blk.en = true :=
  ⟨.reset [] none 0, _, .step (.reset [0x22000000, 1] none 0) rfl, rfl⟩

theorem witness_EveryEventCompletes : overlapped.Inv double16 ∧ sharedDirty.Inv shared8 ∧ releasingAB.Inv double16 :=
  ⟨inv_overlapped, inv_sharedDirty, inv_releasingAB⟩

theorem inv_readyAB : readyAB.Inv double16 := by
  constructor <;> first | exact cells_exist (by decide) | decide
theorem inv_e16 : e16.Inv double16 := by
  constructor <;> first | exact cells_exist (by decide) | decide

-- a frame waiting, and none
theorem witness_QuiescentStatesHoldAtMostOneFrame :
    (readyAB.Inv double16 ∧ readyAB.quiescent = true ∧ readyAB.ready = true ∧ readyAB.slotFull = true) ∧
    (e16.Inv double16 ∧ e16.quiescent = true ∧ e16.slotFull = false) := ⟨⟨inv_readyAB, by decide⟩, inv_e16, by decide⟩

theorem witness_FieldsChangeOnlyByTheirWriters :
    (∃ t, exec (.rxcByte 0x41 false false) (mk double16 e16) = .next t) ∧ Instr.rxcByte 0x41 false false ≠ .rst ∧
    (∃ t, exec .busrPop (mk double16 readyAB) = .next t) ∧ Instr.busrPop ≠ .rst := ⟨⟨_, rfl⟩, by decide, ⟨_, rfl⟩, by decide⟩

-- each flag set by its cause, and cleared by its bit
theorem witness_StickyFlagsFollowTheirCauses :
    (∃ t, exec (.rxcByte 0x45 false false) (mk double4 bankFull) = .next t ∧ bankFull.ovf = false ∧ t.blk.ovf = true) ∧
    (∃ t, exec (.buswStatus 4) (mk double4 discarding) = .next t ∧ discarding.ovf = true ∧ t.blk.ovf = false) ∧
    (∃ t, exec .rxcTick (mk double16 overlapped) = .next t ∧ overlapped.mboxOvr = false ∧ t.blk.mboxOvr = true) ∧
    (∃ t, exec (.buswStatus 8) (mk double16 { overlapped with mboxOvr := true }) = .next t ∧ t.blk.mboxOvr = false) ∧
    (∃ t, exec (.rxcByte 0x58 false false) (mk shared8 sharedReady) = .next t ∧ sharedReady.haz = false ∧ t.blk.haz = true) ∧
    (∃ t, exec (.buswStatus 0x10) (mk shared8 sharedDirty) = .next t ∧ sharedDirty.haz = true ∧ t.blk.haz = false) :=
  ⟨⟨_, rfl, by decide⟩, ⟨_, rfl, by decide⟩, ⟨_, rfl, by decide⟩, ⟨_, rfl, by decide⟩, ⟨_, rfl, by decide⟩, _, rfl, by decide⟩

end Sys2Proof.Tests
end

section
/-! Proofs of the family "scope": the decoder on the encoder's words and the words it takes (R70 to R83), the step, the events
that answer a next state, and the numbering of the draws. -/

namespace Sys2Proof

/-! ### The decoder on the encoder's words -/

/-- A receiver cycle's word (R71, R83): a byte beats an edge, an edge beats a tick. -/
theorem decode_rxcWord (b : Build) (d : Byte) (v e t : Bool) (rest : List Word) :
    decode b (rxcWord d v e t :: rest) =
      .ok (if v then .rxcByte d e t else if e then .rxcEdge t else if t then .rxcTick else .rxcNop, rest) := by
  cases v <;> cases e <;> cases t <;> simp [decode, decodeRxc, Except.map]

/-- A bus read's word with SIZE = 2 (R131). -/
theorem decode_wordRead (b : Build) (off : Half) (rest : List Word) :
    decode b (busWord 1 2 off :: rest) = .ok (busRead (wordForm b off), rest) := by
  simp [decode, decodeBus_busWord, Except.map]

/-- A bus read's word with SIZE below 2 (R132). -/
theorem decode_narrowRead (b : Build) (size : NarrowSize) (off : Half) (rest : List Word) :
    decode b (busWord 1 (narrowBits size) off :: rest) = .ok (.busrBadsize size off, rest) := by
  cases size <;> simp [decode, decodeBus_busWord, narrowBits, busRead, Except.map]

/-- A bus write's words with SIZE = 2 (R131). -/
theorem decode_wordWrite (b : Build) (off : Half) (wdata : Word) (rest : List Word) :
    decode b (busWord 2 2 off :: wdata :: rest) = .ok (busWrite wdata (wordForm b off), rest) := by
  simp [decode, decodeBusw, decodeBus_busWord, Except.map]

/-- A bus write's words with SIZE below 2 (R132). -/
theorem decode_narrowWrite (b : Build) (size : NarrowSize) (off : Half) (wdata : Word) (rest : List Word) :
    decode b (busWord 2 (narrowBits size) off :: wdata :: rest) = .ok (.buswBadsize size off wdata, rest) := by
  cases size <;> simp [decode, decodeBusw, decodeBus_busWord, narrowBits, busWrite, Except.map]

/-- A synchronizer step's word (R75). -/
theorem decode_syncWord (b : Build) (w : Bool) (rest : List Word) :
    decode b (syncWord w :: rest) = .ok (if w then .syncRel else .syncSet, rest) := by
  cases w <;> simp [decode, decodeSync, Except.map]

/-- The reset word (R76). -/
theorem decode_rstWord (b : Build) (rest : List Word) : decode b (rstWord :: rest) = .ok (.rst, rest) := by
  simp [decode, decodeRst, Except.map]

/-- The words of a well-formed event decode to it, whatever follows them (R70 to R83). -/
theorem decode_encode {b : Build} {i : Instr} (rest : List Word) (h : i.wf b = true) :
    decode b (encode i ++ rest) = .ok (i, rest) := by
  cases i with
  | rxcNop => exact decode_rxcWord ..
  | rxcByte d e t => exact decode_rxcWord ..
  | rxcEdge t => exact decode_rxcWord ..
  | rxcTick => exact decode_rxcWord ..
  | busrData k => exact (decode_wordRead ..).trans (by rw [wordForm_data (of_decide_eq_true h)]; rfl)
  | busrRsvd off => exact (decode_wordRead ..).trans (by rw [wordForm_reserved h]; rfl)
  | busrMisaligned off =>
    exact (decode_wordRead ..).trans (by rw [wordForm_misaligned (by simpa [Instr.wf] using h)]; rfl)
  | busrBadsize size off => exact decode_narrowRead ..
  | buswData k wdata => exact (decode_wordWrite ..).trans (by rw [wordForm_data (of_decide_eq_true h)]; rfl)
  | buswRsvd off wdata => exact (decode_wordWrite ..).trans (by rw [wordForm_reserved h]; rfl)
  | buswMisaligned off wdata =>
    exact (decode_wordWrite ..).trans (by rw [wordForm_misaligned (by simpa [Instr.wf] using h)]; rfl)
  | buswBadsize size off wdata => exact decode_narrowWrite ..
  | syncSet => exact decode_syncWord ..
  | syncRel => exact decode_syncWord ..
  | rst => exact decode_rstWord ..
  | busrCtrl | busrIdleThr | busrStatus | busrPop | busrRelease | busrRxLevel | busrIdleCnt | busrConfig =>
    exact decode_wordRead ..
  | buswCtrl _ | buswIdleThr _ | buswStatus _ | buswPop _ | buswRelease _ | buswRxLevel _ | buswIdleCnt _ | buswConfig _ =>
    exact decode_wordWrite ..

/-! ### The words the decoder takes -/

/-- What a mapped decoder answers, it has decoded. -/
theorem of_exceptMap_eq_ok {α β : Type} {f : α → β} {x : Except DecodeError α} {y : β} (h : x.map f = .ok y) :
    ∃ a, x = .ok a ∧ f a = y := by
  cases x with
  | error => cases h
  | ok a => exact ⟨a, rfl, Except.ok.inj h⟩

/-- A bus write is answered only with its operand (R82). -/
theorem decodeBusw_ok {b : Build} {w : Word} {ws rest : List Word} {i : Instr} (h : decodeBusw b w ws = .ok (i, rest)) :
    ∃ f wdata, decodeBus b w = .ok f ∧ i = busWrite wdata f ∧ ws = wdata :: rest := by
  cases ws with
  | nil => cases hd : decodeBus b w <;> rw [decodeBusw, hd] at h <;> cases h
  | cons wdata ws =>
    obtain ⟨f, hd, ⟨⟩⟩ := of_exceptMap_eq_ok h
    exact ⟨f, wdata, hd, rfl, rfl⟩

/-- Everything the decoder can answer (R70, R82, R83): an event of the word's CLASS, with the words after the descriptor left, or
after the operand of a bus write. -/
theorem decode_ok_cases {b : Build} {ws rest : List Word} {i : Instr} (h : decode b ws = .ok (i, rest)) :
    ∃ w tl, ws = w :: tl ∧
      ((classOf w = 0 ∧ decodeRxc w = .ok i ∧ tl = rest) ∨
       (classOf w = 1 ∧ (∃ f, decodeBus b w = .ok f ∧ i = busRead f) ∧ tl = rest) ∨
       (classOf w = 2 ∧ ∃ f wdata, decodeBus b w = .ok f ∧ i = busWrite wdata f ∧ tl = wdata :: rest) ∨
       (classOf w = 3 ∧ decodeSync w = .ok i ∧ tl = rest) ∨
       (classOf w = 4 ∧ decodeRst w = .ok i ∧ tl = rest)) := by
  cases ws with
  | nil => cases h
  | cons w tl =>
    refine ⟨w, tl, rfl, ?_⟩
    simp only [decode] at h
    split at h
    next hc =>
      obtain ⟨_, hd, ⟨⟩⟩ := of_exceptMap_eq_ok h
      exact .inl ⟨hc, hd, rfl⟩
    split at h
    next hc =>
      obtain ⟨f, hd, ⟨⟩⟩ := of_exceptMap_eq_ok h
      exact .inr (.inl ⟨hc, ⟨f, hd, rfl⟩, rfl⟩)
    split at h
    next hc =>
      obtain ⟨f, wdata, hd, hi, htl⟩ := decodeBusw_ok h
      exact .inr (.inr (.inl ⟨hc, f, wdata, hd, hi, htl⟩))
    split at h
    next hc =>
      obtain ⟨_, hd, ⟨⟩⟩ := of_exceptMap_eq_ok h
      exact .inr (.inr (.inr (.inl ⟨hc, hd, rfl⟩)))
    split at h
    next hc =>
      obtain ⟨_, hd, ⟨⟩⟩ := of_exceptMap_eq_ok h
      exact .inr (.inr (.inr (.inr ⟨hc, hd, rfl⟩)))
    next => cases h

/-- An event is spelt by one or two words at the head of the stream (R70, R82). -/
theorem decode_takes_one_or_two {b : Build} {ws rest : List Word} {i : Instr} (h : decode b ws = .ok (i, rest)) :
    ∃ taken, ws = taken ++ rest ∧ 1 ≤ taken.length ∧ taken.length ≤ 2 := by
  obtain ⟨w, tl, rfl, ⟨-, -, rfl⟩ | ⟨-, -, rfl⟩ | ⟨-, _, wdata, -, -, rfl⟩ | ⟨-, -, rfl⟩ | ⟨-, -, rfl⟩⟩ := decode_ok_cases h
  case inr.inr.inl => exact ⟨[w, wdata], rfl, by simp⟩
  all_goals exact ⟨[w], rfl, by simp⟩

namespace Machine

/-! ### The step -/

/-- A step whose stream decodes takes the event (R13, R83). -/
theorem step_of_decode {s : State} {i : Instr} {rest : List Word} (h : decode s.build s.events = .ok (i, rest)) :
    step s = exec i (s.beginEvent rest) := by
  unfold step; rw [h]

/-! ### Where the effect of an event exists (R46, R93) -/

/-- Where the accumulation bank exists, so does every byte a delivered byte can be stored in (R94, R95). -/
theorem rxcByte_exists {b : Build} {k : Block} (hb : b.buffering = .shared → k.accBank = 0) (d : Byte) :
    ∃ k', rxcByte b d k = some k' := by
  have store {i : Nat} (hi : i < b.frameCap) := bankWrite_eq_some (v := d) (k := k).mpr ⟨bankExists_of hb hi, rfl⟩
  unfold rxcByte
  split
  · exact ⟨_, by rw [startFrame, store (frameCap_pos b)]; rfl⟩
  · split
    next hlt => exact ⟨_, by rw [appendByte, store hlt]; rfl⟩
    next => exact ⟨_, rfl⟩
  · exact ⟨_, rfl⟩

/-- Where the accumulation bank exists, so does the effect of every event. -/
theorem blockEffect_exists {b : Build} {k : Block} (hb : b.buffering = .shared → k.accBank = 0) (i : Instr) :
    ∃ k', blockEffect b k i = some k' := by
  cases i with
  | rxcByte d e t =>
    cases hen : k.en with
    | false => exact ⟨k, by simp [blockEffect, hen]⟩
    | true => simpa [blockEffect, hen] using rxcByte_exists hb d
  | _ => exact ⟨_, rfl⟩

/-! ### Draws (R15, log entry 6) -/

/-- Only a DATA read, and a diagnostic read in ASYNC mode, hand out draws. -/
theorem drawsOf_eq_zero {b : Build} {i : Instr} (hdata : ∀ n, i ≠ .busrData n)
    (hdiag : ¬(b.clocking = .async ∧ (i = .busrStatus ∨ i = .busrRxLevel ∨ i = .busrIdleCnt))) : drawsOf b i = 0 := by
  cases i with
  | busrData n => exact absurd rfl (hdata n)
  | busrStatus | busrRxLevel | busrIdleCnt => exact if_neg fun hc => hdiag ⟨hc, by simp⟩
  | _ => rfl

/-- A diagnostic read in ASYNC mode hands out one draw (R138). -/
theorem drawsOf_diagnostic {b : Build} {i : Instr} (hc : b.clocking = .async)
    (h : i = .busrStatus ∨ i = .busrRxLevel ∨ i = .busrIdleCnt) : drawsOf b i = 1 := by
  rcases h with rfl | rfl | rfl <;> exact if_pos hc

/-- In ASYNC mode a diagnostic field shows the next draw (R138). -/
theorem diagnostic_async {w : Nat} {s : State} (hc : s.build.clocking = .async) (v : BitVec w) :
    diagnostic s v = Config.draw w s.drawn := by
  unfold diagnostic; rw [hc]

/-- STATUS[6:5] is the field RXS (R141). -/
@[simp] theorem statusWord_rxs (k : Block) (rx : BitVec 2) : (statusWord k rx).extractLsb' 5 2 = rx := by
  ext j hj
  simp only [statusWord, BitVec.getElem_extractLsb', BitVec.getLsbD_append]
  interval_cases j <;> simp [BitVec.getLsbD_eq_getElem]

/-- A lane of the data window is a draw while no frame is ready or held (R148). -/
theorem dataLane_of_no_frame {s : State} (hr : s.blk.ready = false) (hh : s.blk.held = false) (n j : Nat) :
    dataLane s n j = Config.draw 8 (s.drawn + j) := by
  simp [dataLane, windowByte, hr, hh]

end Machine

end Sys2Proof

open Sys2Proof Sys2Proof.Machine

/-- Settles O6: the step by the decoder's answer. -/
theorem stepTakesTheDecodedEvent : Obligations.StepTakesTheDecodedEvent :=
  fun _ _ _ h => step_of_decode h

/-- Settles O7: the decoder reads the encoder's words back, so the step takes the event they spell. -/
theorem stepTakesTheEncodedEvent : Obligations.StepTakesTheEncodedEvent := by
  intro s i rest hwf hev
  exact step_of_decode (hev ▸ decode_encode rest hwf)

/-- Settles O9: the words taken by the decoder, and the frame of the event taken. -/
theorem stepKeepsBuildAndTakesOneEvent : Obligations.StepKeepsBuildAndTakesOneEvent := by
  intro s t h
  obtain ⟨i, rest, hdecode, hexec⟩ := step_next h
  obtain ⟨-, hbuild, hevents, -, hdrawn⟩ := exec_next hexec
  refine ⟨hbuild, hdrawn ▸ Nat.le_add_right .., ?_⟩
  rw [hevents]
  exact decode_takes_one_or_two hdecode

/-- Settles O54: R46 gives the accumulation bank, so no byte lacks its storage. -/
theorem everyEventCompletes : Obligations.EveryEventCompletes := by
  intro s i hinv
  obtain ⟨k, hk⟩ := blockEffect_exists (fun hs => (hinv.shared_bank hs).1) i
  exact ⟨_, exec_of_effect hk⟩

/-- Settles O37: the count by `drawsOf`, the draws shown by the response of each read. -/
theorem drawsAreNumberedInOrder : Obligations.DrawsAreNumberedInOrder := by
  intro s t i h
  obtain ⟨-, -, -, hresp, hdrawn⟩ := exec_next h
  refine ⟨?_, ?_, ?_, fun hc => ⟨?_, ?_⟩, ?_⟩
  · rintro n rfl
    exact hdrawn
  · intro hc hi
    rw [hdrawn, drawsOf_diagnostic hc hi]
  · intro hdata hdiag
    rw [hdrawn, drawsOf_eq_zero hdata hdiag, Nat.add_zero]
  · rintro (rfl | rfl) <;> simp [hresp, busResponse, diagnostic_async hc, halfWord]
  · rintro rfl w hw
    simp only [hresp, busResponse, diagnostic_async hc, Option.some_or, Option.some.injEq, Response.okayRead.injEq] at hw
    rw [← hw, statusWord_rxs]
  · rintro hr hh n rfl
    simp [hresp, busResponse, dataWord, dataLane_of_no_frame hr hh]

end

section
/-! Proofs of the family "state": the invariant under every event (R42 to R46), the byte that has no storage (log entry 8), what a
bus read sees of the storage (R49), the writers of each field (R22) and the causes of the sticky flags (R37 to R39). -/

namespace Sys2Proof.Machine

/-- A write leaves no written byte unwritten (R27). -/
theorem Memory.read_write_ne_none {m : Memory} {x : Nat} (h : Memory.read m x ≠ none) (a : Nat) (v : Byte) :
    Memory.read (Memory.write m a v) x ≠ none := by
  rw [Memory.read_write]
  split
  · exact Option.some_ne_none v
  · exact h

section
variable {b : Build} {k k' : Block}

/-! ### The invariant under each operation: a field of `Block.Inv` that reads nothing the operation writes is carried over -/

theorem reset_inv (b : Build) : Block.reset.Inv b where
  slot_full := rfl
  one_token := by decide
  idle_clear := fun _ => ⟨rfl, rfl⟩
  accum_ptr := nofun
  discard_ptr := nofun
  disabled_idle := fun _ => rfl
  below_threshold := fun h => absurd rfl h
  bank_separate := nofun
  double_clean := fun _ => ⟨rfl, rfl⟩
  shared_bank := fun _ => ⟨rfl, rfl⟩
  length_bounds := nofun
  storage_wf := List.Pairwise.nil
  storage_exists := nofun
  frame_written := fun h => absurd rfl h
  slot_written := nofun

/-! The mailbox's moves (R115): the token changes hands. -/

/-- A token that is set is the slot's only one (R42). -/
theorem Block.Inv.other_tokens_clear (h : k.Inv b) :
    (k.setPending = true → k.ready = false ∧ k.held = false ∧ k.relPending = false) ∧
    (k.ready = true → k.setPending = false ∧ k.held = false ∧ k.relPending = false) ∧
    (k.held = true → k.setPending = false ∧ k.ready = false ∧ k.relPending = false) ∧
    (k.relPending = true → k.setPending = false ∧ k.ready = false ∧ k.held = false) := by
  have one := h.one_token
  unfold tokenCount at one
  refine ⟨fun ht => ?_, fun ht => ?_, fun ht => ?_, fun ht => ?_⟩
  all_goals
    simp only [ht, Bool.toNat_true] at one
    simp only [← Bool.toNat_eq_zero]
    omega

theorem takeFrame_inv (h : k.Inv b) (hr : k.ready = true) : (takeFrame k).Inv b := by
  obtain ⟨-, alone, -, -⟩ := h.other_tokens_clear
  obtain ⟨hs, -, hp⟩ := alone hr
  exact { h with
    slot_full := by simp [h.slot_full, hr]
    one_token := by simp [tokenCount, hs, hp] }

theorem writeRelease_inv (h : k.Inv b) (q : Bool) : (writeRelease q k).Inv b := by
  unfold writeRelease
  split
  next hq =>
    obtain ⟨-, hh⟩ := Bool.and_eq_true_iff.mp hq
    obtain ⟨-, -, alone, -⟩ := h.other_tokens_clear
    obtain ⟨hs, hr, -⟩ := alone hh
    exact { h with
      slot_full := by simp [h.slot_full, hh]
      one_token := by simp [tokenCount, hs, hr] }
  next => exact h

theorem syncSet_inv (h : k.Inv b) : (syncSet k).Inv b := by
  unfold syncSet
  split
  next hs =>
    obtain ⟨alone, -, -, -⟩ := h.other_tokens_clear
    obtain ⟨-, hh, hp⟩ := alone hs
    exact { h with
      slot_full := by simp [h.slot_full, hs]
      one_token := by simp [tokenCount, hh, hp] }
  next => exact h

theorem syncRel_inv (h : k.Inv b) : (syncRel k).Inv b := by
  unfold syncRel
  split
  next hp =>
    obtain ⟨-, -, -, alone⟩ := h.other_tokens_clear
    obtain ⟨hs, hr, hh⟩ := alone hp
    exact { h with
      slot_full := by simp [hs, hr, hh]
      one_token := by simp [tokenCount, hs, hr, hh]
      bank_separate := nofun
      length_bounds := nofun
      slot_written := nofun }
  next => exact h

/-! The register writes. -/

theorem clearSticky_inv (h : k.Inv b) (o m z : Bool) : (clearSticky o m z k).Inv b :=
  { h with double_clean := fun hd => by simp [h.double_clean hd] }

/-- The threshold is written only while the receiver is disabled, so never inside a frame (R43, R139). -/
theorem writeIdleThr_inv (h : k.Inv b) (v : Half) : (writeIdleThr v k).Inv b := by
  unfold writeIdleThr
  split
  next => exact h
  next hen => exact { h with below_threshold := fun hr => absurd (h.disabled_idle (by simpa using hen)) hr }

theorem frameBoundary_inv (h : k.Inv b) : (frameBoundary k).Inv b :=
  { h with
    idle_clear := fun _ => ⟨rfl, rfl⟩
    accum_ptr := nofun
    discard_ptr := nofun
    disabled_idle := fun _ => rfl
    below_threshold := fun hr => absurd rfl hr
    frame_written := fun hr => absurd rfl hr }

theorem setControlBits_inv (h : k.Inv b) {en : Bool} (hen : en = false → k.rxs = .idle) (rdyIe errIe : Bool) :
    (setControlBits en rdyIe errIe k).Inv b :=
  { h with disabled_idle := hen }

theorem writeCtrl_inv (h : k.Inv b) (en rdyIe errIe : Bool) : (writeCtrl en rdyIe errIe k).Inv b := by
  unfold writeCtrl
  split
  next => exact setControlBits_inv (frameBoundary_inv h) (fun _ => rfl) _ _
  next hne => exact setControlBits_inv h (fun hen => h.disabled_idle (by simpa [hen] using hne)) _ _

/-! The edge and the tick. -/

/-- The idle interval restarts or goes on, inside a frame and below the threshold (R44). -/
theorem setIdleCnt_inv (h : k.Inv b) (hr : k.rxs ≠ .idle) {n : Half} (hn : n.toNat < max k.idleThr.toNat 1) :
    Block.Inv b { k with idleCnt := n } :=
  { h with
    idle_clear := fun hi => absurd hi hr
    below_threshold := fun _ => hn }

theorem rxcEdge_inv (h : k.Inv b) : (rxcEdge k).Inv b := by
  unfold rxcEdge
  split
  next => exact h
  next hr => exact setIdleCnt_inv h hr (by simp)

/-- The frame in progress becomes the published one: what held of `acc_bank` below `wr_ptr` holds of `mb_bank` below `mb_len`, and
the slot's only token is `set_pending` (R100, R101). -/
theorem publish_inv (h : k.Inv b) (hr : k.rxs = .accum) (hf : k.slotFull = false) :
    (frameBoundary (publish b k.wrPtr k)).Inv b := by
  have tokens := h.slot_full
  simp only [hf, Bool.false_eq, Bool.or_eq_false_iff] at tokens
  obtain ⟨⟨⟨-, hready⟩, hheld⟩, hrel⟩ := tokens
  exact { frameBoundary_inv h with
    slot_full := rfl
    one_token := by simp [tokenCount, hready, hheld, hrel]
    bank_separate := fun hd _ => by simpa [hd] using (one_sub_ne k.accBank).symm
    double_clean := fun hd => ⟨rfl, (h.double_clean hd).2⟩
    shared_bank := fun hs => by simp [hs, h.shared_bank hs]
    length_bounds := fun _ => h.accum_ptr hr
    frame_written := fun hn => absurd rfl hn
    slot_written := fun _ => h.frame_written (by simp [hr]) }

theorem rxcTick_inv (h : k.Inv b) : (rxcTick b k).Inv b := by
  obtain ⟨-, he⟩ | ⟨hr, hlt, he⟩ | ⟨-, -, -, he⟩ | ⟨hr, -, hf, he⟩ | ⟨-, -, he⟩ := rxcTick_cases b k <;> rw [he]
  · exact h
  · exact setIdleCnt_inv h hr (by rwa [satInc_toNat])
  · exact frameBoundary_inv { h with }
  · exact publish_inv h hr hf
  · exact frameBoundary_inv h

/-! The byte. -/

theorem markOverlap_inv (h : k.Inv b) : (markOverlap b k).Inv b := by
  unfold markOverlap
  split
  next hs => exact { h with double_clean := fun hd => by simp [hs.1] at hd }
  next => exact h

/-- A byte stored at `wr_ptr`, before the overlap is marked: a first byte (R95, `storeByte_of_first`) and an appended one (R94,
`storeByte_of_accum`) alike. -/
def storeByte (d : Byte) (k : Block) : Block :=
  { k with
    bank := Memory.write k.bank (bankAddr k.accBank k.wrPtr.toNat) d
    wrPtr := k.wrPtr + 1
    rxs := .accum
    idleCnt := 0 }

theorem storeByte_of_first (hptr : k.wrPtr = 0) (d : Byte) :
    storeByte d k = { k with
      bank := Memory.write k.bank (bankAddr k.accBank 0) d, wrPtr := 1, rxs := .accum, idleCnt := 0 } := by
  simp [storeByte, hptr]

theorem storeByte_of_accum (hr : k.rxs = .accum) (d : Byte) :
    storeByte d k = { k with
      bank := Memory.write k.bank (bankAddr k.accBank k.wrPtr.toNat) d, wrPtr := k.wrPtr + 1, idleCnt := 0 } := by
  simp [storeByte, hr]

/-- Every byte counted is written, in every receiver state: between frames none is counted (R24, R43). -/
theorem Block.Inv.counted_written (h : k.Inv b) : ∀ i < k.wrPtr.toNat, bankRead k k.accBank i ≠ none := by
  intro i hi
  by_cases hr : k.rxs = .idle
  · simp [h.idle_clear hr] at hi
  · exact h.frame_written hr i hi

theorem storeByte_inv (h : k.Inv b) (hen : k.en = true) (hw : k.wrPtr.toNat < b.frameCap)
    (he : bankExists b k.accBank k.wrPtr.toNat = true) (d : Byte) : (storeByte d k).Inv b := by
  have cap := frameCap_le b
  have advanced : (k.wrPtr + 1).toNat = k.wrPtr.toNat + 1 := by
    rw [BitVec.toNat_add, show (1 : Half).toNat = 1 from rfl]
    omega
  exact { h with
    idle_clear := nofun
    accum_ptr := fun _ => by simp only [storeByte, advanced]; omega
    discard_ptr := nofun
    disabled_idle := fun hd => by simp [storeByte, hen] at hd
    below_threshold := fun _ => by simp [storeByte]
    storage_wf := Memory.write_wf h.storage_wf _ _
    storage_exists := fun c hc => by
      rcases Memory.mem_write hc with rfl | hc
      · exact ⟨_, _, he, rfl⟩
      · exact h.storage_exists c hc
    frame_written := fun _ i hi => by
      simp only [storeByte, advanced] at hi
      rcases Nat.lt_succ_iff_lt_or_eq.mp hi with hi | rfl
      · exact Memory.read_write_ne_none (h.counted_written i hi) _ _
      · simp [bankRead, storeByte, Memory.read_write]
    slot_written := fun hf i hi => Memory.read_write_ne_none (h.slot_written hf i hi) _ _ }

theorem overflowFrame_inv (h : k.Inv b) (hen : k.en = true) (hr : k.rxs = .accum) (hw : b.frameCap ≤ k.wrPtr.toNat) :
    (overflowFrame k).Inv b :=
  { h with
    idle_clear := nofun
    accum_ptr := nofun
    discard_ptr := fun _ => le_antisymm (h.accum_ptr hr).2 hw
    disabled_idle := fun hd => by simp [hen] at hd
    below_threshold := fun _ => by simp
    frame_written := fun _ => h.counted_written }

theorem rxcByte_inv (h : k.Inv b) (hen : k.en = true) {d : Byte} (hk : rxcByte b d k = some k') : k'.Inv b := by
  obtain ⟨hr, he, rfl⟩ | ⟨hr, hw, he, rfl⟩ | ⟨hr, hw, rfl⟩ | ⟨hr, rfl⟩ := rxcByte_cases hk
  · obtain ⟨hptr, -⟩ := h.idle_clear hr
    have index : k.wrPtr.toNat = 0 := by simp [hptr]
    rw [← storeByte_of_first hptr]
    exact markOverlap_inv (storeByte_inv h hen (index ▸ frameCap_pos b) (index ▸ he) d)
  · rw [← storeByte_of_accum hr]
    exact markOverlap_inv (storeByte_inv h hen hw he d)
  · exact overflowFrame_inv h hen hr hw
  · exact setIdleCnt_inv h (by simp [hr]) (by simp)

/-! ### The invariant under every event, step and run -/

/-- A byte acts on an enabled receiver only (R91). -/
theorem blockEffect_rxcByte {d : Byte} {e t : Bool} (hk : blockEffect b k (.rxcByte d e t) = some k') :
    (k.en = true ∧ rxcByte b d k = some k') ∨ k' = k := by
  simp only [blockEffect] at hk
  split at hk
  next hen => exact .inl ⟨hen, hk⟩
  next => cases hk; exact .inr rfl

theorem blockEffect_inv {i : Instr} (h : k.Inv b) (hk : blockEffect b k i = some k') : k'.Inv b := by
  cases i with
  | rxcByte d e t =>
    obtain ⟨hen, hk⟩ | rfl := blockEffect_rxcByte hk
    · exact rxcByte_inv h hen hk
    · exact h
  | rxcEdge t =>
    cases hk
    split
    next => exact rxcEdge_inv h
    next => exact h
  | rxcTick =>
    cases hk
    split
    next => exact rxcTick_inv h
    next => exact h
  | busrPop =>
    cases hk
    split
    next hr => exact takeFrame_inv h hr
    next => exact h
  | buswCtrl w => cases hk; exact writeCtrl_inv h _ _ _
  | buswIdleThr w => cases hk; exact writeIdleThr_inv h _
  | buswStatus w => cases hk; exact clearSticky_inv h _ _ _
  | buswRelease w => cases hk; exact writeRelease_inv h _
  | syncSet => cases hk; exact syncSet_inv h
  | syncRel => cases hk; exact syncRel_inv h
  | rst => cases hk; exact reset_inv b
  | _ => cases hk; exact h

/-- A step stays on its build and keeps the invariant. -/
theorem step_inv {s t : State} (h : s.blk.Inv s.build) (hstep : step s = .next t) :
    t.build = s.build ∧ t.blk.Inv t.build := by
  obtain ⟨i, rest, -, hexec⟩ := step_next hstep
  obtain ⟨hk, hbuild, -⟩ := exec_next hexec
  exact ⟨hbuild, hbuild ▸ blockEffect_inv h hk⟩

/-- In every reachable state the build is the run's and the record meets the invariant. -/
theorem reachable_inv {s : State} (h : Reachable b s) : s.build = b ∧ s.blk.Inv s.build := by
  induction h with
  | reset => exact ⟨rfl, reset_inv b⟩
  | step _ hstep ih =>
    obtain ⟨hbuild, hinv⟩ := step_inv ih.2 hstep
    exact ⟨hbuild.trans ih.1, hinv⟩

/-! ### Where the effect of an event does not exist (log entry 8) -/

/-- A byte below FRAME_CAP is missing only in bank 1 of a SHARED build (R22). -/
theorem bankExists_eq_false {bk : BitVec 1} {i : Nat} (hi : i < b.frameCap) :
    bankExists b bk i = false ↔ b.buffering = .shared ∧ bk = 1 := by
  have two : bk = 0 ∨ bk = 1 := by revert bk; decide
  cases hb : b.buffering <;> rcases two with rfl | rfl <;> simp [bankExists, Build.nbank, hb, hi]

theorem bankWrite_eq_none {bk : BitVec 1} {i : Nat} (hi : i < b.frameCap) (v : Byte) (k : Block) :
    bankWrite b bk i v k = none ↔ b.buffering = .shared ∧ bk = 1 := by
  rw [← bankExists_eq_false hi]
  simp [bankWrite]

/-- A byte that is stored lacks its storage in bank 1 of a SHARED build; a byte that is dropped needs none (R93). -/
theorem rxcByte_eq_none (d : Byte) :
    rxcByte b d k = none ↔ b.buffering = .shared ∧ k.accBank = 1 ∧
      (k.rxs = .idle ∨ (k.rxs = .accum ∧ k.wrPtr.toNat < b.frameCap)) := by
  unfold rxcByte
  split
  next hr => simp [startFrame, bankWrite_eq_none (frameCap_pos b), hr]
  next hr =>
    split
    next hw => simp [appendByte, bankWrite_eq_none hw, hr, hw]
    next hw => simp [hr, hw]
  next hr => simp [hr]

theorem blockEffect_eq_none {i : Instr} :
    blockEffect b k i = none ↔ (∃ d e t, i = .rxcByte d e t) ∧ k.en = true ∧ b.buffering = .shared ∧ k.accBank = 1 ∧
      (k.rxs = .idle ∨ (k.rxs = .accum ∧ k.wrPtr.toNat < b.frameCap)) := by
  cases i with
  | rxcByte d e t => cases hen : k.en <;> simp [blockEffect, hen, rxcByte_eq_none]
  | _ => simp [blockEffect]

theorem exec_fault_iff {i : Instr} {s : State} : (∃ f, exec i s = .fault f) ↔ blockEffect s.build s.blk i = none := by
  rw [exec_eq]
  split
  next hk => simp [hk]
  next hk => exact iff_of_true ⟨_, rfl⟩ hk

/-! ### What a bus read sees of the storage (R49) -/

theorem windowByte_of_bank_agree {m : Memory}
    (h : ∀ n < k.mbLen.toNat, Memory.read m (bankAddr k.mbBank n) = bankRead k k.mbBank n) (i : Nat) :
    windowByte { k with bank := m } i = windowByte k i := by
  unfold windowByte
  by_cases hi : i < k.mbLen.toNat
  · simp only [bankRead] at h ⊢
    rw [h i hi]
  · simp [hi]

/-- Of the bus reads DATA alone looks at the storage, and it shows the published bytes of the mailbox bank or draws (R148). -/
theorem busResponse_of_bank_agree {s : State} {m : Memory}
    (h : ∀ n < s.blk.mbLen.toNat, Memory.read m (bankAddr s.blk.mbBank n) = bankRead s.blk s.blk.mbBank n) (i : Instr) :
    busResponse { s with blk := { s.blk with bank := m } } i = busResponse s i := by
  cases i with
  | busrData n => simp only [busResponse, dataWord, dataLane, windowByte_of_bank_agree h]
  | _ => rfl

/-! ### What a byte and a tick write (R22), and the errors they set (R172 to R174) -/

theorem markOverlap_frame (b : Build) (k : Block) :
    markOverlap b k = { k with slotDirty := (markOverlap b k).slotDirty, haz := (markOverlap b k).haz } := by
  unfold markOverlap; split <;> rfl

/-- What a byte writes (R93 to R98): every other field is as before. -/
theorem rxcByte_frame {d : Byte} (hk : rxcByte b d k = some k') :
    k' = { k with
      rxs := k'.rxs, wrPtr := k'.wrPtr, idleCnt := k'.idleCnt, bank := k'.bank
      slotDirty := k'.slotDirty, ovf := k'.ovf, haz := k'.haz } := by
  obtain ⟨-, -, rfl⟩ | ⟨-, -, -, rfl⟩ | ⟨-, -, rfl⟩ | ⟨-, rfl⟩ := rxcByte_cases hk
  · rw [markOverlap_frame]
  · rw [markOverlap_frame]
  · rfl
  · rfl

/-- What a tick writes (R99 to R101): every other field is as before. -/
theorem rxcTick_frame (hk : rxcTick b k = k') :
    k' = { k with
      rxs := k'.rxs, wrPtr := k'.wrPtr, idleCnt := k'.idleCnt, accBank := k'.accBank, mbBank := k'.mbBank
      mbLen := k'.mbLen, slotDirty := k'.slotDirty, slotFull := k'.slotFull, setPending := k'.setPending
      mboxOvr := k'.mboxOvr } := by
  subst hk
  obtain ⟨-, he⟩ | ⟨-, -, he⟩ | ⟨-, -, -, he⟩ | ⟨-, -, -, he⟩ | ⟨-, -, he⟩ := rxcTick_cases b k
  all_goals rw [he] <;> rfl

/-- A flag is as it was, or its cause holds and it is set: the cause sets it and nothing clears it. -/
def SetBy (cause : Prop) (old new : Bool) : Prop := new = old ∨ cause ∧ new = true

theorem SetBy.mono {c c' : Prop} {old new : Bool} (h : SetBy c old new) (hc : c → c') : SetBy c' old new :=
  h.imp_right (And.imp_left hc)

theorem SetBy.cause_of_set {c : Prop} {old new : Bool} (h : SetBy c old new) (h0 : old = false) (h1 : new = true) : c := by
  obtain rfl | ⟨hc, -⟩ := h
  · simp [h0] at h1
  · exact hc

theorem SetBy.not_cleared {c : Prop} {old new : Bool} (h : SetBy c old new) (h1 : old = true) : new ≠ false := by
  obtain rfl | ⟨-, rfl⟩ := h <;> simp [h1]

theorem markOverlap_sets_haz (b : Build) (k : Block) :
    SetBy (b.buffering = .shared ∧ k.slotFull = true) k.haz (markOverlap b k).haz := by
  unfold markOverlap
  split
  next hs => exact .inr ⟨hs, rfl⟩
  next => exact .inl rfl

/-- A byte sets `ovf` by overflowing a full bank (R97, R172), and `haz` by being stored in the one bank of a full slot (R96,
R174). -/
theorem rxcByte_sets {d : Byte} (hk : rxcByte b d k = some k') :
    SetBy (k.rxs = .accum ∧ b.frameCap ≤ k.wrPtr.toNat) k.ovf k'.ovf ∧
    SetBy (b.buffering = .shared ∧ k.slotFull = true) k.haz k'.haz := by
  obtain ⟨-, -, rfl⟩ | ⟨-, -, -, rfl⟩ | ⟨hr, hw, rfl⟩ | ⟨-, rfl⟩ := rxcByte_cases hk
  · exact ⟨.inl (markOverlap_ovf ..), markOverlap_sets_haz ..⟩
  · exact ⟨.inl (markOverlap_ovf ..), markOverlap_sets_haz ..⟩
  · exact ⟨.inr ⟨⟨hr, hw⟩, rfl⟩, .inl rfl⟩
  · exact ⟨.inl rfl, .inl rfl⟩

/-- A tick sets `mbox_ovr` by dropping a frame for which the slot is full (R100, R173). -/
theorem rxcTick_sets (b : Build) (k : Block) :
    SetBy (k.rxs = .accum ∧ k.slotFull = true) k.mboxOvr (rxcTick b k).mboxOvr := by
  obtain ⟨-, he⟩ | ⟨-, -, he⟩ | ⟨hr, -, hf, he⟩ | ⟨-, -, -, he⟩ | ⟨-, -, he⟩ := rxcTick_cases b k <;> rw [he]
  case inr.inr.inl => exact .inr ⟨⟨hr, hf⟩, rfl⟩
  all_goals exact .inl rfl

end

end Sys2Proof.Machine

open Sys2Proof Sys2Proof.Machine

/-- Settles O51: each operation keeps the invariant (`blockEffect_inv`), and a step is one event's effect. -/
theorem everyStepKeepsTheInvariant : Obligations.EveryStepKeepsTheInvariant :=
  fun _ _ h hstep => (step_inv h hstep).2

/-- Settles O18: an event stops the machine where its effect does not exist. -/
theorem onlyAByteWithoutItsBankStops : Obligations.OnlyAByteWithoutItsBankStops :=
  fun _ _ => exec_fault_iff.trans blockEffect_eq_none

/-- Settles O33: the response of the event, on storages that agree on the published bytes. -/
theorem busSeesOnlyTheMailboxBank : Obligations.BusSeesOnlyTheMailboxBank := by
  intro s t u i m _ hagree ht hu
  obtain ⟨-, -, -, hrespT, -⟩ := exec_next ht
  obtain ⟨-, -, -, hrespU, -⟩ := exec_next hu
  rw [hrespT, hrespU, busResponse_of_bank_agree hagree]

/-- Settles O53: the invariant of every reachable state, in the spec's words. -/
theorem reachableStatesMeetTheSpecInvariants : Obligations.ReachableStatesMeetTheSpecInvariants := by
  intro b s hs
  obtain ⟨rfl, h⟩ := reachable_inv hs
  refine ⟨?_, h.one_token, ?_, h.idle_clear, h.accum_ptr, h.discard_ptr, h.disabled_idle, fun hr => ?_,
    fun hd => ⟨h.bank_separate hd, (h.double_clean hd).1⟩, h.shared_bank⟩
  · rw [h.slot_full]
    simp [or_assoc]
  · rintro ⟨hr, hh⟩
    obtain ⟨-, alone, -, -⟩ := h.other_tokens_clear
    obtain ⟨-, notHeld, -⟩ := alone hr
    simp [hh] at notHeld
  · have below := h.below_threshold hr
    omega

/-- Settles O56: the event's effect on the record, field by field; a byte and a tick by the fields they write. -/
theorem fieldsChangeOnlyByTheirWriters : Obligations.FieldsChangeOnlyByTheirWriters := by
  intro s t i h hi
  obtain ⟨hk, -⟩ := exec_next h
  generalize t.blk = k' at *
  cases i with
  | rxcByte d e x =>
    obtain ⟨-, hk⟩ | rfl := blockEffect_rxcByte hk
    · rw [rxcByte_frame hk]
      simp [Instr.isRxc]
    · simp
  | rxcTick =>
    cases hk
    split
    · rw [rxcTick_frame rfl]
      simp [Instr.isRxc]
    · simp
  | rxcEdge _ | busrPop => cases hk; split <;> simp [Instr.isRxc]
  | buswIdleThr w => cases hk; cases hen : s.blk.en <;> simp [hen]
  | buswCtrl _ | buswStatus _ | buswRelease _ | syncSet | syncRel => cases hk; simp
  | rst => exact absurd rfl hi
  | _ => cases hk; simp

/-- Settles O57: RST and the STATUS write set no flag and clear by their own bits; of the other events only a byte and a tick
touch the flags (O56), each by its cause. -/
theorem stickyFlagsFollowTheirCauses : Obligations.StickyFlagsFollowTheirCauses := by
  intro s t i h
  obtain ⟨hk, -⟩ := exec_next h
  by_cases hclear : i = .rst ∨ ∃ w, i = .buswStatus w
  · obtain rfl | ⟨w, rfl⟩ := hclear
    · rw [← Option.some.inj hk]
      simp [Block.reset]
    · rw [← Option.some.inj hk]
      simp +contextual [wdataBit]
  · obtain ⟨hrst, hstatus⟩ : i ≠ .rst ∧ ∀ w, i ≠ .buswStatus w := by simpa using hclear
    obtain ⟨-, -, -, -, -, -, -, -, -, -, hbyte, htick⟩ := fieldsChangeOnlyByTheirWriters s t i h hrst
    have hovf_haz :
        SetBy ((∃ d e x, i = .rxcByte d e x) ∧ s.blk.rxs = .accum ∧ s.build.frameCap ≤ s.blk.wrPtr.toNat)
          s.blk.ovf t.blk.ovf ∧
        SetBy ((∃ d e x, i = .rxcByte d e x) ∧ s.build.buffering = .shared ∧ s.blk.slotFull = true)
          s.blk.haz t.blk.haz := by
      by_cases hi : ∃ d e x, i = .rxcByte d e x
      · obtain ⟨d, e, x, rfl⟩ := hi
        obtain ⟨-, hk⟩ | hk := blockEffect_rxcByte hk
        · exact (rxcByte_sets hk).imp (.mono · (.intro ⟨d, e, x, rfl⟩)) (.mono · (.intro ⟨d, e, x, rfl⟩))
        · exact ⟨.inl (hk ▸ rfl), .inl (hk ▸ rfl)⟩
      · exact (hbyte hstatus fun d e x h => hi ⟨d, e, x, h⟩).imp .inl .inl
    have hmboxOvr : SetBy (i = .rxcTick ∧ s.blk.rxs = .accum ∧ s.blk.slotFull = true) s.blk.mboxOvr t.blk.mboxOvr := by
      by_cases hi : i = .rxcTick
      · subst hi
        rw [← Option.some.inj hk]
        split
        next => exact (rxcTick_sets s.build s.blk).mono (.intro rfl)
        next => exact .inl rfl
      · exact .inl (htick hstatus hi)
    obtain ⟨hovf, hhaz⟩ := hovf_haz
    exact ⟨hovf.cause_of_set, fun h1 h0 => (hovf.not_cleared h1 h0).elim,
      hmboxOvr.cause_of_set, fun h1 h0 => (hmboxOvr.not_cleared h1 h0).elim,
      hhaz.cause_of_set, fun h1 h0 => (hhaz.not_cleared h1 h0).elim⟩

/-- Settles O49: `State.reset` holds the values, and the empty storage has no byte. -/
theorem resetStateHasTheResetValues : Obligations.ResetStateHasTheResetValues :=
  ⟨rfl, fun _ _ => rfl⟩

end

section
/-! Proofs of the family "memory": the published frame while the slot stays full (R58 to R60), the bytes of a clean frame in the
data window (R59, R148), and the one bus read with a side effect (R57, R143). -/

namespace Sys2Proof.Machine

section
variable {b : Build} {k k' : Block}

/-! ### The published frame while the slot is full (R58 to R60) -/

/-- A tick publishes only into an empty slot (R100): the frame of a full one stays. -/
theorem rxcTick_keeps_published (hf : k.slotFull = true) :
    (rxcTick b k).mbBank = k.mbBank ∧ (rxcTick b k).mbLen = k.mbLen := by
  obtain ⟨-, he⟩ | ⟨-, -, he⟩ | ⟨-, -, -, he⟩ | ⟨-, -, hempty, -⟩ | ⟨-, -, he⟩ := rxcTick_cases b k
  case inr.inr.inr.inl => simp [hf] at hempty
  all_goals rw [he]; exact ⟨rfl, rfl⟩

/-- What a byte does to the storage (R94 to R96): nothing, or one byte of the accumulation bank, which marks a full SHARED slot
dirty. -/
theorem rxcByte_bank {d : Byte} (hk : rxcByte b d k = some k') :
    k'.bank = k.bank ∨
    (∃ i < 65536, k'.bank = Memory.write k.bank (bankAddr k.accBank i) d) ∧
      (b.buffering = .shared → k.slotFull = true → k'.slotDirty = true) := by
  obtain ⟨-, -, rfl⟩ | ⟨-, -, -, rfl⟩ | ⟨-, -, rfl⟩ | ⟨-, rfl⟩ := rxcByte_cases hk
  · exact .inr ⟨⟨0, by omega, markOverlap_bank ..⟩, fun hs hf => by simp [hs, hf]⟩
  · exact .inr ⟨⟨_, k.wrPtr.isLt, markOverlap_bank ..⟩, fun hs hf => by simp [hs, hf]⟩
  · exact .inl rfl
  · exact .inl rfl

/-- A byte stored in one bank leaves the other bank as it was (R12, R27). -/
theorem Memory.read_write_other_bank (m : Memory) {x y : BitVec 1} (hxy : x ≠ y) {i n : Nat} (hi : i < 65536) (hn : n < 65536)
    (v : Byte) : Memory.read (Memory.write m (bankAddr y i) v) (bankAddr x n) = Memory.read m (bankAddr x n) := by
  rw [Memory.read_write, if_neg]
  exact fun h => hxy ((bankAddr_inj hn hi).mp h).1

/-- A byte leaves the published frame's bytes as they are: in DOUBLE mode it is stored in the other bank (R45, R60), in SHARED mode
it dirties the slot (R96). -/
theorem rxcByte_keeps_mailbox_bank (h : k.Inv b) (hf : k.slotFull = true) {d : Byte} (hk : rxcByte b d k = some k')
    (hclean : b.buffering = .double ∨ k'.slotDirty = false) {n : Nat} (hn : n < b.frameCap) :
    bankRead k' k.mbBank n = bankRead k k.mbBank n := by
  unfold bankRead
  obtain hbank | ⟨⟨i, hi, hbank⟩, hdirty⟩ := rxcByte_bank hk
  · rw [hbank]
  · have double : b.buffering = .double := by
      cases hb : b.buffering with
      | double => rfl
      | shared => simp [hb, hdirty hb hf] at hclean
    have cap := frameCap_le b
    rw [hbank, Memory.read_write_other_bank _ (h.bank_separate double hf) hi (by omega)]

/-! ### The data window (R53, R148) -/

/-- Lane `j` of a data word. -/
theorem dataWord_lane (s : State) (n : Nat) {j : Nat} (hj : j < 4) :
    (dataWord s n).extractLsb' (8 * j) 8 = dataLane s n j := by
  ext i hi
  simp only [dataWord, BitVec.getElem_extractLsb', BitVec.getLsbD_append]
  interval_cases j <;> simp +arith [BitVec.getLsbD_eq_getElem, hi]

/-- A byte of a clean frame that is ready or held is written, and the data window shows it (R58, R59). -/
theorem windowByte_of_clean_frame (h : k.Inv b) (htaken : k.ready = true ∨ k.held = true) (hclean : k.slotDirty = false)
    {i : Nat} (hi : i < k.mbLen.toNat) : ∃ v, bankRead k k.mbBank i = some v ∧ windowByte k i = some v := by
  have full : k.slotFull = true := by rw [h.slot_full]; obtain hr | hh := htaken <;> simp [*]
  obtain ⟨v, hv⟩ := Option.ne_none_iff_exists'.mp (h.slot_written full i hi)
  exact ⟨v, hv, by simp [windowByte, htaken, hclean, hi, hv]⟩

/-! ### The bus reads (R57, R143) -/

/-- What a bus read does to the block: POP takes a ready frame, and nothing else changes it (R57). -/
theorem blockEffect_busRead {i : Instr} (h : i.isBusRead = true) :
    blockEffect b k i = some (if i = .busrPop ∧ k.ready = true then takeFrame k else k) := by
  cases i with
  | busrPop => simp [blockEffect]
  | busrCtrl | busrIdleThr | busrStatus | busrRelease | busrRxLevel | busrIdleCnt | busrConfig | busrData _ | busrRsvd _
  | busrMisaligned _ | busrBadsize _ _ => simp [blockEffect]
  | _ => cases h

end

/-- After a POP no frame is ready (R143). -/
theorem not_ready_after_pop {s t : State} (h : exec .busrPop s = .next t) : t.blk.ready = false := by
  obtain ⟨hk, -⟩ := exec_next h
  rw [← Option.some.inj hk]
  split
  next => rfl
  next hr => simpa using hr

/-- POP with no frame ready answers 0 and takes nothing (R143). -/
theorem exec_busrPop_of_not_ready {s : State} (h : s.blk.ready = false) :
    exec .busrPop s = .next { s with resp := some (.okayRead 0) } := by
  simp [exec, execBusrPop, h, respondOnly, State.respond]

end Sys2Proof.Machine

open Sys2Proof Sys2Proof.Machine

/-- Settles O28: of the slot's writers (O56) a tick does not publish over a full slot, and a byte is stored in the other bank or
dirties the slot. -/
theorem publishedFrameIsStable : Obligations.PublishedFrameIsStable := by
  intro s t i hinv hexec hfull hfull'
  have hrst : i ≠ .rst := by
    rintro rfl
    cases hexec
    cases hfull'
  obtain ⟨hk, -⟩ := exec_next hexec
  obtain ⟨-, -, hslot, hbank, -⟩ := fieldsChangeOnlyByTheirWriters s t i hexec hrst
  obtain ⟨hmbBank, hmbLen⟩ : t.blk.mbBank = s.blk.mbBank ∧ t.blk.mbLen = s.blk.mbLen := by
    by_cases hi : i = .rxcTick
    · subst hi
      rw [← Option.some.inj hk]
      split
      next => exact rxcTick_keeps_published hfull
      next => exact ⟨rfl, rfl⟩
    · exact (hslot hi).2
  refine ⟨hmbLen, hmbBank, fun hclean n hn => ?_⟩
  rw [hmbBank]
  by_cases hi : ∃ d e x, i = .rxcByte d e x
  · obtain ⟨d, e, x, rfl⟩ := hi
    obtain ⟨-, hk⟩ | hsame := blockEffect_rxcByte hk
    · exact rxcByte_keeps_mailbox_bank hinv hfull hk hclean hn
    · rw [hsame]
  · obtain ⟨same, -⟩ := hbank fun d e x h => hi ⟨d, e, x, h⟩
    rw [bankRead, bankRead, same]

/-- Settles O38: the lane is the window's byte, which the invariant says is written. -/
theorem frameBytesAreDefined : Obligations.FrameBytesAreDefined := by
  intro s n j hinv htaken hclean hj hlen
  obtain ⟨v, hv, hwindow⟩ := windowByte_of_clean_frame hinv htaken hclean hlen
  exact ⟨dataWord s n, v, s.drawn + 4, rfl, hv, by rw [dataWord_lane s n hj, dataLane, hwindow]; rfl⟩

/-- Settles O39: the effect of a bus read exists and is the identity but for POP of a ready frame. -/
theorem onlyPopReadHasASideEffect : Obligations.OnlyPopReadHasASideEffect := by
  intro s i hread
  refine ⟨_, exec_of_effect (blockEffect_busRead hread), ?_⟩
  by_cases hpop : i = .busrPop ∧ s.blk.ready = true
  · exact .inr hpop
  · exact .inl (if_neg hpop)

/-- Settles O35: the first POP leaves no frame ready. -/
theorem secondPopTakesNothing : Obligations.SecondPopTakesNothing :=
  fun _ _ h => exec_busrPop_of_not_ready (not_ready_after_pop h)

end

section
/-! Proofs of the family "encoding": every word put together again from its fields, the words and the well-formedness of what the
decoder answers (R70 to R83, R131), the words it refuses (R80), and the response of each kind of event (R74). -/

namespace Sys2Proof

/-! ### A word is its fields -/

/-- A field of one bit. -/
theorem ofBool_getLsbD (w : Word) (n : Nat) : BitVec.ofBool (w.getLsbD n) = w.extractLsb' n 1 := by
  ext j hj
  simp [show j = 0 by omega]

/-- Format RXC has no fields beside D, V, E and T (R71). -/
theorem rxcWord_of_fields {w : Word} (hclass : classOf w = 0) (hzero : w.extractLsb' 11 17 = 0) :
    rxcWord (w.extractLsb' 0 8) (w.getLsbD 8) (w.getLsbD 9) (w.getLsbD 10) = w := by
  have h4 : 0x0#4 = w.extractLsb' 28 4 := hclass.symm
  have h17 : 0#17 = w.extractLsb' 11 17 := hzero.symm
  simp only [rxcWord, ofBool_getLsbD, h4, h17]
  repeat rw [BitVec.extractLsb'_append_extractLsb'_eq_extractLsb' (by rfl)]
  exact BitVec.extractLsb'_eq_self

/-- Formats BUSR and BUSW have no fields beside SIZE and OFFSET (R72). -/
theorem busWord_of_fields {w : Word} (hhigh : w.extractLsb' 26 2 = 0) (hlow : w.extractLsb' 16 8 = 0) :
    busWord (classOf w) (sizeField w) (offsetOf w) = w := by
  have h2 : 0#2 = w.extractLsb' 26 2 := hhigh.symm
  have h8 : 0#8 = w.extractLsb' 16 8 := hlow.symm
  simp only [busWord, classOf, sizeField, offsetOf, h2, h8]
  repeat rw [BitVec.extractLsb'_append_extractLsb'_eq_extractLsb' (by rfl)]
  exact BitVec.extractLsb'_eq_self

/-- Format SYNC has no field beside W (R75). -/
theorem syncWord_of_fields {w : Word} (hclass : classOf w = 3) (hzero : w.extractLsb' 1 27 = 0) :
    syncWord (w.getLsbD 0) = w := by
  have h4 : 0x3#4 = w.extractLsb' 28 4 := hclass.symm
  have h27 : 0#27 = w.extractLsb' 1 27 := hzero.symm
  simp only [syncWord, ofBool_getLsbD, h4, h27]
  repeat rw [BitVec.extractLsb'_append_extractLsb'_eq_extractLsb' (by rfl)]
  exact BitVec.extractLsb'_eq_self

/-- Format RST has no fields (R76). -/
theorem rstWord_of_fields {w : Word} (hclass : classOf w = 4) (hzero : w.extractLsb' 0 28 = 0) : rstWord = w := by
  have h4 : 0x4#4 = w.extractLsb' 28 4 := hclass.symm
  have h28 : 0#28 = w.extractLsb' 0 28 := hzero.symm
  simp only [rstWord, h4, h28]
  rw [BitVec.extractLsb'_append_extractLsb'_eq_extractLsb' (by rfl)]
  exact BitVec.extractLsb'_eq_self

/-- Masking D out of a receiver cycle's word leaves the word with D = 0 (R71). -/
theorem rxcWord_mask (d : Byte) (v e t : Bool) : rxcWord d v e t &&& 0xFFFFFF00#32 = rxcWord 0 v e t := by
  have hmask : 0xFFFFFF00#32 = BitVec.allOnes 24 ++ 0#8 := rfl
  rw [rxcWord, hmask, BitVec.and_append, BitVec.and_allOnes, BitVec.and_zero]
  rfl

/-! ### The words of a receiver cycle and of a bus access -/

/-- The event of a receiver cycle is encoded with its own inputs, and with D = 0 where V = 0 (R71, log entry 9). -/
theorem encode_rxc (d : Byte) (v e t : Bool) :
    encode (if v then .rxcByte d e t else if e then .rxcEdge t else if t then .rxcTick else .rxcNop) =
      [rxcWord (if v then d else 0) v e t] := by
  cases v <;> cases e <;> cases t <;> rfl

/-- The offset of a register (R48, R84). -/
def Reg.offset : Reg → Half
  | .ctrl => 0x0000
  | .idleThr => 0x0004
  | .status => 0x0008
  | .pop => 0x000C
  | .release => 0x0010
  | .rxLevel => 0x0014
  | .idleCnt => 0x0018
  | .config => 0x001C
  | .data k => dataOffset k

/-- The SIZE a form is spelt with (R72, R131). -/
def BusForm.size : BusForm → BitVec 2
  | .badsize size _ => narrowBits size
  | .misaligned _ | .reg _ | .rsvd _ => 2

/-- The OFFSET a form is spelt with (R72, R131). -/
def BusForm.offset : BusForm → Half
  | .badsize _ off | .misaligned off | .rsvd off => off
  | .reg r => r.offset

/-- A bus read is encoded by its form's SIZE and OFFSET (R72, R79). -/
theorem encode_busRead (f : BusForm) : encode (busRead f) = [busWord 1 f.size f.offset] := by
  cases f with
  | reg r => cases r <;> rfl
  | _ => rfl

/-- A bus write is encoded by its form's SIZE and OFFSET, and its operand (R72, R79). -/
theorem encode_busWrite (wdata : Word) (f : BusForm) : encode (busWrite wdata f) = [busWord 2 f.size f.offset, wdata] := by
  cases f with
  | reg r => cases r <;> rfl
  | _ => rfl

/-- A form spells a read and a write under the same conditions (R79). -/
theorem busWrite_wf (b : Build) (wdata : Word) (f : BusForm) : (busWrite wdata f).wf b = (busRead f).wf b := by
  cases f with
  | reg r => cases r <;> rfl
  | _ => rfl

/-- The offset that names a register is the register's own (R131). -/
theorem regOf_offset {b : Build} {off : Half} {r : Reg} (ha : offsetAligned off = true) (h : regOf b off = some r) :
    r.offset = off := by
  unfold regOf at h
  iterate 8
    split at h
    next hoff => cases h; exact hoff.symm
  split at h
  next hwindow =>
    cases h
    have hmod : off.toNat % 4 = 0 := by simpa [offsetAligned] using ha
    apply BitVec.eq_of_toNat_eq
    rw [Reg.offset, dataOffset_toNat (b := b) (by omega)]
    omega
  next => cases h

/-- What a word access can be: misaligned, of a register at its own offset, or reserved (R131). -/
theorem wordForm_cases (b : Build) (off : Half) :
    (offsetAligned off = false ∧ wordForm b off = .misaligned off) ∨
    (∃ r, regOf b off = some r ∧ r.offset = off ∧ wordForm b off = .reg r) ∨
    (offsetReserved b off = true ∧ wordForm b off = .rsvd off) := by
  cases ha : offsetAligned off with
  | false => exact .inl ⟨rfl, wordForm_misaligned ha⟩
  | true =>
    cases hr : regOf b off with
    | some r => exact .inr (.inl ⟨r, rfl, regOf_offset ha hr, by rw [wordForm_aligned ha, hr]⟩)
    | none =>
      have hrsvd := offsetReserved_of_regOf ha hr
      exact .inr (.inr ⟨hrsvd, wordForm_reserved hrsvd⟩)

/-- A word access is spelt with SIZE 2 and its own offset (R131). -/
theorem wordForm_spelling (b : Build) (off : Half) : (wordForm b off).size = 2 ∧ (wordForm b off).offset = off := by
  obtain ⟨-, h⟩ | ⟨r, -, hoff, h⟩ | ⟨-, h⟩ := wordForm_cases b off <;> rw [h]
  · exact ⟨rfl, rfl⟩
  · exact ⟨rfl, hoff⟩
  · exact ⟨rfl, rfl⟩

/-- A word access is a well-formed event (R133, R148, R150). -/
theorem wordForm_wf (b : Build) (off : Half) : (busRead (wordForm b off)).wf b = true := by
  obtain ⟨ha, h⟩ | ⟨r, hr, -, h⟩ | ⟨hrsvd, h⟩ := wordForm_cases b off <;> rw [h]
  · simp [busRead, Instr.wf, ha]
  · cases r with
    | data k => exact decide_eq_true (regOf_eq_data hr).1
    | _ => rfl
  · exact hrsvd

/-- A bus descriptor that the decoder reads is spelt by the form's SIZE and OFFSET, and the form is of the build (R72, R131). -/
theorem decodeBus_ok {b : Build} {w : Word} {f : BusForm} (h : decodeBus b w = .ok f) :
    busWord (classOf w) f.size f.offset = w ∧ (busRead f).wf b = true := by
  unfold decodeBus at h
  split at h
  next => cases h
  next hzero =>
  obtain ⟨hhigh, hlow⟩ : w.extractLsb' 26 2 = 0 ∧ w.extractLsb' 16 8 = 0 := by simpa using hzero
  have hw := busWord_of_fields hhigh hlow
  split at h
  next => cases h
  split at h
  next h0 => cases h; rw [h0] at hw; exact ⟨hw, rfl⟩
  split at h
  next h1 => cases h; rw [h1] at hw; exact ⟨hw, rfl⟩
  next h3 h0 h1 =>
    cases h
    obtain ⟨hsize, hoffset⟩ := wordForm_spelling b (offsetOf w)
    have h2 : sizeField w = 2 := by bv_omega
    exact ⟨by rw [hsize, hoffset, ← h2]; exact hw, wordForm_wf ..⟩

/-! ### The words the decoder refuses (R80) -/

/-- Mapping an answer makes no error and removes none. -/
theorem exceptMap_error_iff {α β : Type} {f : α → β} {x : Except DecodeError α} :
    (∃ e, x.map f = .error e) ↔ ∃ e, x = .error e := by
  cases x <;> simp [Except.map]

/-- A check that refuses adds its own condition to the refusals of what follows it. -/
theorem ite_error_iff {α : Type} {p : Prop} [Decidable p] {d : DecodeError} {x : Except DecodeError α} :
    (∃ e, (if p then .error d else x) = .error e) ↔ p ∨ ∃ e, x = .error e := by
  split
  next hp => exact iff_of_true ⟨d, rfl⟩ (.inl hp)
  next hp => exact (or_iff_right hp).symm

/-- R80 (b), format RXC. -/
theorem decodeRxc_error_iff {w : Word} : (∃ e, decodeRxc w = .error e) ↔ w.extractLsb' 11 17 ≠ 0 := by
  rw [decodeRxc, ite_error_iff, or_iff_left]
  split_ifs <;> simp

/-- R80 (b) and (c), formats BUSR and BUSW. -/
theorem decodeBus_error_iff {b : Build} {w : Word} :
    (∃ e, decodeBus b w = .error e) ↔ w.extractLsb' 26 2 ≠ 0 ∨ w.extractLsb' 16 8 ≠ 0 ∨ sizeField w = 3 := by
  rw [decodeBus, ite_error_iff, ite_error_iff, or_assoc, or_iff_left (a := sizeField w = 3)]
  split_ifs <;> simp

/-- R80 (b), format SYNC. -/
theorem decodeSync_error_iff {w : Word} : (∃ e, decodeSync w = .error e) ↔ w.extractLsb' 1 27 ≠ 0 := by
  rw [decodeSync, ite_error_iff, or_iff_left]
  split_ifs <;> simp

/-- R80 (b), format RST. -/
theorem decodeRst_error_iff {w : Word} : (∃ e, decodeRst w = .error e) ↔ w.extractLsb' 0 28 ≠ 0 := by
  rw [decodeRst, ite_error_iff, or_iff_left]
  simp

/-- The decoder refuses exactly the words of R80: by CLASS, what the word's own format refuses. -/
theorem decode_error_iff {b : Build} {w : Word} {ws : List Word} (hop : classOf w = 2 → ws ≠ []) :
    (∃ e, decode b (w :: ws) = .error e) ↔ spellsNoEvent w := by
  simp only [decode, spellsNoEvent, ← classOf.eq_1, ← sizeField.eq_1]
  split
  next hc => rw [exceptMap_error_iff, decodeRxc_error_iff]; simp [hc]
  split
  next hc => rw [exceptMap_error_iff, decodeBus_error_iff]; simp [hc]
  split
  next hc =>
    obtain ⟨wdata, rest, rfl⟩ := List.exists_cons_of_ne_nil (hop hc)
    rw [decodeBusw, exceptMap_error_iff, decodeBus_error_iff]; simp [hc]
  split
  next hc => rw [exceptMap_error_iff, decodeSync_error_iff]; simp [hc]
  split
  next hc => rw [exceptMap_error_iff, decodeRst_error_iff]; simp [hc]
  next => exact iff_of_true ⟨_, rfl⟩ (.inl (by bv_omega))

/-! ### The words of every event -/

/-- The words the decoder takes, by format: each is spelt by the encoder's function of its format, and a bus access is one that the
build's descriptors can spell (R70 to R83). -/
theorem decode_ok_words {b : Build} {ws rest : List Word} {i : Instr} (h : decode b ws = .ok (i, rest)) :
    (∃ d v e t, ws = rxcWord d v e t :: rest) ∨
    (∃ f, i = busRead f ∧ (busRead f).wf b = true ∧ ws = busWord 1 f.size f.offset :: rest) ∨
    (∃ f wdata, i = busWrite wdata f ∧ (busRead f).wf b = true ∧ ws = busWord 2 f.size f.offset :: wdata :: rest) ∨
    (∃ r, ws = syncWord r :: rest) ∨
    ws = rstWord :: rest := by
  obtain ⟨w, tl, rfl, ⟨hc, hd, rfl⟩ | ⟨hc, ⟨f, hd, hi⟩, rfl⟩ | ⟨hc, f, wdata, hd, hi, rfl⟩ | ⟨hc, hd, rfl⟩ | ⟨hc, hd, rfl⟩⟩ :=
    decode_ok_cases h
  case inl =>
    refine .inl ⟨_, _, _, _, congrArg (· :: tl) (rxcWord_of_fields hc ?_).symm⟩
    by_contra hzero
    obtain ⟨e, he⟩ := decodeRxc_error_iff.mpr hzero
    cases hd.symm.trans he
  case inr.inl =>
    obtain ⟨hw, hwf⟩ := decodeBus_ok hd
    exact .inr (.inl ⟨f, hi, hwf, by rw [← hc, hw]⟩)
  case inr.inr.inl =>
    obtain ⟨hw, hwf⟩ := decodeBus_ok hd
    exact .inr (.inr (.inl ⟨f, wdata, hi, hwf, by rw [← hc, hw]⟩))
  case inr.inr.inr.inl =>
    refine .inr (.inr (.inr (.inl ⟨_, congrArg (· :: tl) (syncWord_of_fields hc ?_).symm⟩)))
    by_contra hzero
    obtain ⟨e, he⟩ := decodeSync_error_iff.mpr hzero
    cases hd.symm.trans he
  case inr.inr.inr.inr =>
    refine .inr (.inr (.inr (.inr (congrArg (· :: tl) (rstWord_of_fields hc ?_).symm))))
    by_contra hzero
    obtain ⟨e, he⟩ := decodeRst_error_iff.mpr hzero
    cases hd.symm.trans he

namespace Machine

/-- A step is refused exactly where the stream does not decode, since no event is refused (R80). -/
theorem step_refused_iff {s : State} : (∃ r, step s = .refused r) ↔ ∃ e, decode s.build s.events = .error e := by
  unfold step
  cases decode s.build s.events with
  | ok p => simp [exec_ne_refused]
  | error e => simp

/-! ### Responses (R74) -/

/-- The response of an event by its kind: none, ERR, OKAY with data, or OKAY. -/
theorem busResponse_cases (s : State) (i : Instr) :
    (i.isBusRead = false ∧ i.isBusWrite = false ∧ i.isBusError = false ∧ busResponse s i = none) ∨
    ((i.isBusRead || i.isBusWrite) = true ∧ i.isBusError = true ∧ busResponse s i = some .err) ∨
    (i.isBusRead = true ∧ i.isBusWrite = false ∧ i.isBusError = false ∧ ∃ w, busResponse s i = some (.okayRead w)) ∨
    (i.isBusRead = false ∧ i.isBusWrite = true ∧ i.isBusError = false ∧ busResponse s i = some .okayWrite) := by
  cases i with
  | rxcNop | rxcByte _ _ _ | rxcEdge _ | rxcTick | syncSet | syncRel | rst => exact .inl ⟨rfl, rfl, rfl, rfl⟩
  | busrRsvd _ | busrMisaligned _ | busrBadsize _ _ | buswRsvd _ _ | buswMisaligned _ _ | buswBadsize _ _ _ =>
    exact .inr (.inl ⟨rfl, rfl, rfl⟩)
  | busrCtrl | busrIdleThr | busrStatus | busrPop | busrRelease | busrRxLevel | busrIdleCnt | busrConfig | busrData _ =>
    exact .inr (.inr (.inl ⟨rfl, rfl, rfl, _, rfl⟩))
  | buswCtrl _ | buswIdleThr _ | buswStatus _ | buswPop _ | buswRelease _ | buswRxLevel _ | buswIdleCnt _ | buswConfig _
  | buswData _ _ => exact .inr (.inr (.inr ⟨rfl, rfl, rfl, rfl⟩))

/-- A rejected access changes nothing but the response (R171). -/
theorem exec_busError {i : Instr} (h : i.isBusError = true) (s : State) : exec i s = .next { s with resp := some .err } := by
  cases i with
  | busrRsvd _ | busrMisaligned _ | busrBadsize _ _ | buswRsvd _ _ | buswMisaligned _ _ | buswBadsize _ _ _ => rfl
  | _ => cases h

end Machine

end Sys2Proof

open Sys2Proof Sys2Proof.Machine

/-- Settles O1: the decoder on the encoder's words, event by event. -/
theorem decodeOfEncodeIsTheEvent : Obligations.DecodeOfEncodeIsTheEvent :=
  fun _ _ rest h => decode_encode rest h

/-- Settles O2: a bus access is well-formed by its offset (R131), every other event has no condition. -/
theorem decodedEventIsWellFormed : Obligations.DecodedEventIsWellFormed := by
  intro b ws rest i h
  obtain ⟨d, v, e, t, rfl⟩ | ⟨f, rfl, hwf, -⟩ | ⟨f, wdata, rfl, hwf, -⟩ | ⟨r, rfl⟩ | rfl := decode_ok_words h
  case inl => rw [decode_rxcWord] at h; cases h; split_ifs <;> rfl
  case inr.inl => exact hwf
  case inr.inr.inl => rw [busWrite_wf, hwf]
  case inr.inr.inr.inl => rw [decode_syncWord] at h; cases h; split_ifs <;> rfl
  case inr.inr.inr.inr => rw [decode_rstWord] at h; cases h; rfl

/-- Settles O3: the words are those of their format, and the encoder writes each format from the same fields, but for D where
V = 0. -/
theorem encodeOfDecodedIsTheWord : Obligations.EncodeOfDecodedIsTheWord := by
  intro b w ws rest i h
  have word_of_class {x : Word} (hx : classOf x ≠ 0) :
      (if x.extractLsb' 28 4 = 0 ∧ x.getLsbD 8 = false then x &&& 0xFFFFFF00 else x) = x :=
    if_neg fun hmask => hx hmask.1
  obtain ⟨d, v, e, t, ⟨⟩⟩ | ⟨f, rfl, -, ⟨⟩⟩ | ⟨f, wdata, rfl, -, ⟨⟩⟩ | ⟨r, ⟨⟩⟩ | hrst := decode_ok_words h
  case inl =>
    rw [decode_rxcWord] at h
    cases h
    have hclass : (rxcWord d v e t).extractLsb' 28 4 = 0 := classOf_rxcWord ..
    exact ⟨[], rfl, by rw [encode_rxc]; cases v <;> simp [hclass, rxcWord_mask]⟩
  case inr.inl => exact ⟨[], rfl, by rw [encode_busRead, word_of_class (by simp)]⟩
  case inr.inr.inl => exact ⟨[wdata], rfl, by rw [encode_busWrite, word_of_class (by simp)]⟩
  case inr.inr.inr.inl =>
    rw [decode_syncWord] at h
    cases h
    exact ⟨[], rfl, by rw [word_of_class (by simp)]; cases r <;> rfl⟩
  case inr.inr.inr.inr =>
    obtain ⟨rfl, rfl⟩ := List.cons.inj hrst
    rw [decode_rstWord] at h
    cases h
    exact ⟨[], rfl, by rw [word_of_class (by simp)]; rfl⟩

/-- Settles O8: a step is refused where the decoder answers an error. -/
theorem stepRefusesExactlyWordsOfNoEvent : Obligations.StepRefusesExactlyWordsOfNoEvent := by
  intro s w ws hev hop
  rw [step_refused_iff, hev, decode_error_iff hop]

/-- Settles O41: the response of the event, by its kind. -/
theorem everyBusEventGivesOneResponse : Obligations.EveryBusEventGivesOneResponse := by
  intro s t i hnone h
  have hresp : t.resp = busResponse s i := by
    obtain ⟨-, -, -, hresp, -⟩ := exec_next h
    rw [hresp, hnone, Option.or_none]
  have herr (he : i.isBusError = true) : t = { s with resp := some .err } :=
    Host.Outcome.next.inj (h.symm.trans (exec_busError he s))
  rw [hresp]
  obtain ⟨hr, hw, he, hb⟩ | ⟨hrw, he, hb⟩ | ⟨hr, hw, he, w, hb⟩ | ⟨hr, hw, he, hb⟩ := busResponse_cases s i
  · simp [hb, hr, hw, he]
  · exact ⟨by simpa [hb, or_iff_not_imp_left] using hrw, by simp [hb, he], herr, by simp [hb, he], by simp [hb, he]⟩
  · simp [hb, hr, hw, he]
  · simp [hb, hr, hw, he]

/-- Settles O4: each word decodes to its event by evaluation. -/
theorem speltWordsDecode : Obligations.SpeltWordsDecode :=
  ⟨rfl, rfl, rfl, rfl, rfl, rfl, rfl, rfl, rfl⟩

end

section
/-! Proofs of the family "receiver": a receiver cycle's events one by one (R91 to R103), a run of quiet ticks (R194), where frames
start and end, and the refinement of the abstract frame accumulator (R104, R105). -/

namespace Sys2Proof.Machine

section
variable {b : Build} {k k' : Block}

/-! ### The frame in progress under every event but a byte -/

/-- An event that is no byte ends the frame in progress or leaves it, and the bytes it has stored, as they are. -/
theorem blockEffect_keeps_or_ends_frame {i : Instr} (hi : ∀ d e t, i ≠ .rxcByte d e t) (hk : blockEffect b k i = some k') :
    k'.rxs = .idle ∨
      (k'.rxs = k.rxs ∧ k'.wrPtr = k.wrPtr ∧ k'.accBank = k.accBank ∧ k'.bank = k.bank) := by
  cases i with
  | rxcByte d e t => exact absurd rfl (hi d e t)
  | rxcTick =>
    cases hk
    split
    next =>
      obtain ⟨-, he⟩ | ⟨-, -, he⟩ | ⟨-, -, -, he⟩ | ⟨-, -, -, he⟩ | ⟨-, -, he⟩ := rxcTick_cases b k <;> rw [he]
      · exact .inr ⟨rfl, rfl, rfl, rfl⟩
      · exact .inr ⟨rfl, rfl, rfl, rfl⟩
      · exact .inl rfl
      · exact .inl rfl
      · exact .inl rfl
    next => exact .inr ⟨rfl, rfl, rfl, rfl⟩
  | buswCtrl w =>
    cases hk
    by_cases hdisable : k.en = true ∧ wdataBit w 0 = false
    · exact .inl (by simp [hdisable])
    · exact .inr (by simp [hdisable])
  | rst => cases hk; exact .inl rfl
  | rxcEdge _ | busrPop => cases hk; split <;> simp
  | buswIdleThr _ | buswStatus _ | buswRelease _ | syncSet | syncRel => cases hk; simp
  | _ => cases hk; exact .inr ⟨rfl, rfl, rfl, rfl⟩

/-- After a byte the receiver is inside a frame (R94 to R98). -/
theorem rxcByte_rxs_ne_idle {d : Byte} (hk : rxcByte b d k = some k') : k'.rxs ≠ .idle := by
  obtain ⟨-, -, rfl⟩ | ⟨hr, -, -, rfl⟩ | ⟨-, -, rfl⟩ | ⟨hr, rfl⟩ := rxcByte_cases hk <;> simp [*]

/-! ### The abstract frame (R104) -/

/-- Whether a block holds a frame is read off `rxs`, `wr_ptr` and the accumulation bank. -/
theorem Block.holdsFrame_congr {acc : List Byte}
    (h : k'.rxs = k.rxs ∧ k'.wrPtr = k.wrPtr ∧ k'.accBank = k.accBank ∧ k'.bank = k.bank) :
    k'.holdsFrame b acc ↔ k.holdsFrame b acc := by
  obtain ⟨hr, hw, ha, hb⟩ := h
  simp only [Block.holdsFrame, bankRead, hr, hw, ha, hb]

/-- A byte stored at `wr_ptr`, above the bytes of the frame, joins them. -/
theorem storeByte_holdsFrame {acc : List Byte} (hw : k.wrPtr.toNat < b.frameCap) (hlen : acc.length = k.wrPtr.toNat)
    (hacc : ∀ i < acc.length, bankRead k k.accBank i = acc[i]?) (d : Byte) : (storeByte d k).holdsFrame b (acc ++ [d]) := by
  have cap := frameCap_le b
  have advanced : (k.wrPtr + 1).toNat = k.wrPtr.toNat + 1 := BitVec.toNat_add_of_lt (by simp; omega)
  simp only [Block.holdsFrame, storeByte, bankRead, List.length_append, List.length_singleton, advanced, Memory.read_write]
  refine ⟨by omega, by omega, fun i hi => ?_⟩
  by_cases hlast : i = k.wrPtr.toNat
  · simp [hlast, ← hlen]
  · have before : i < acc.length := by omega
    have apart : ¬bankAddr k.accBank i = bankAddr k.accBank k.wrPtr.toNat := by
      rw [bankAddr_inj (by omega) (by omega)]
      exact fun same => hlast same.2
    rw [if_neg apart, List.getElem?_append_left before, ← hacc i before, bankRead]

/-- A byte delivered to an enabled receiver joins the frame (R93 to R98). -/
theorem rxcByte_holdsFrame (h : k.Inv b) {acc : List Byte} (hacc : k.holdsFrame b acc) {d : Byte}
    (hk : rxcByte b d k = some k') : k'.holdsFrame b (acc ++ [d]) := by
  have marked (j : Block) : (markOverlap b j).holdsFrame b (acc ++ [d]) ↔ j.holdsFrame b (acc ++ [d]) :=
    Block.holdsFrame_congr (by simp)
  have longer (hlen : b.frameCap ≤ acc.length) : b.frameCap < (acc ++ [d]).length := by
    rw [List.length_append, List.length_singleton]
    omega
  unfold Block.holdsFrame at hacc
  obtain ⟨hr, -, rfl⟩ | ⟨hr, hw, -, rfl⟩ | ⟨hr, hw, rfl⟩ | ⟨hr, rfl⟩ := rxcByte_cases hk <;> simp only [hr] at hacc
  · obtain ⟨hptr, -⟩ := h.idle_clear hr
    have index : k.wrPtr.toNat = 0 := by simp [hptr]
    rw [← storeByte_of_first hptr, marked]
    exact storeByte_holdsFrame (index ▸ frameCap_pos b) (by simp [hacc, hptr]) (by simp [hacc]) d
  · obtain ⟨hlen, -, hbytes⟩ := hacc
    rw [← storeByte_of_accum hr, marked]
    exact storeByte_holdsFrame hw hlen hbytes d
  · obtain ⟨hlen, -⟩ := hacc
    exact longer (hlen ▸ hw)
  · simpa only [Block.holdsFrame, discardByte, hr] using longer (Nat.le_of_lt hacc)

/-- An event that is no byte adds nothing to the frame, and a boundary forgets it (R104). -/
theorem received_of_not_byte {i : Instr} (hi : ∀ d e t, i ≠ .rxcByte d e t) (acc : List Byte) :
    received acc i k k' = if k'.rxs = .idle then [] else acc := by
  cases i with
  | rxcByte d e t => exact absurd rfl (hi d e t)
  | _ => rfl

/-- Every event takes the block and the abstract frame to a block that holds that frame (R104). -/
theorem blockEffect_holdsFrame {i : Instr} (h : k.Inv b) {acc : List Byte} (hacc : k.holdsFrame b acc)
    (hk : blockEffect b k i = some k') : k'.holdsFrame b (received acc i k k') := by
  by_cases hidle : k'.rxs = .idle
  · simp [Block.holdsFrame, received, hidle]
  by_cases hi : ∃ d e t, i = .rxcByte d e t
  · obtain ⟨d, e, t, rfl⟩ := hi
    cases hen : k.en with
    | true =>
      simp only [blockEffect, received, hen, hidle, if_true, if_false] at hk ⊢
      exact rxcByte_holdsFrame h hacc hk
    | false =>
      simp only [blockEffect, hen, Bool.false_eq_true, if_false, Option.some.injEq] at hk
      subst hk
      simpa [received, hen, hidle] using hacc
  · have notByte : ∀ d e t, i ≠ .rxcByte d e t := fun d e t h => hi ⟨d, e, t, h⟩
    have kept := (blockEffect_keeps_or_ends_frame notByte hk).resolve_left hidle
    rw [received_of_not_byte notByte, if_neg hidle]
    exact (Block.holdsFrame_congr kept).mpr hacc

/-! ### Where frames are published and end -/

/-- A tick fills the slot by an expiry in ACCUM alone (R99 to R101). -/
theorem rxcTick_fills_slot (hempty : k.slotFull = false) (hfull : (rxcTick b k).slotFull = true) :
    k.rxs = .accum ∧ rxcTick b k = frameBoundary (publish b k.wrPtr k) := by
  obtain ⟨-, he⟩ | ⟨-, -, he⟩ | ⟨-, -, hf, -⟩ | ⟨hr, -, -, he⟩ | ⟨-, -, he⟩ := rxcTick_cases b k
  case inr.inr.inr.inl => exact ⟨hr, he⟩
  case inr.inr.inl => simp [hempty] at hf
  all_goals simp [he, hempty] at hfull

end

/-- The slot is filled by an expiry in ACCUM alone, which publishes the bytes counted (R99 to R101). -/
theorem exec_fills_slot {s t : State} {i : Instr} (h : exec i s = .next t) (hempty : s.blk.slotFull = false)
    (hfull : t.blk.slotFull = true) :
    i = .rxcTick ∧ s.blk.rxs = .accum ∧ t.blk = frameBoundary (publish s.build s.blk.wrPtr s.blk) := by
  obtain ⟨hk, -⟩ := exec_next h
  by_cases hi : i = .rxcTick
  · subst hi
    rw [← Option.some.inj hk] at hfull ⊢
    split at hfull
    next hen => simpa [hen] using rxcTick_fills_slot hempty hfull
    next => simp [hempty] at hfull
  · have empty : t.blk.slotFull = false := by
      by_cases hclear : i = .rst ∨ i = .syncRel
      · obtain rfl | rfl := hclear <;> rw [← Option.some.inj hk] <;> simp [Block.reset, hempty]
      · obtain ⟨hrst, hrel⟩ := not_or.mp hclear
        obtain ⟨-, -, -, -, hslot, -⟩ := fieldsChangeOnlyByTheirWriters s t i h hrst
        rw [hslot hi hrel, hempty]
    simp [empty] at hfull

/-- A frame in progress is ended by a tick, a reset or a disable only (R100, R137, R190). -/
theorem exec_ends_frame {s t : State} {i : Instr} (h : exec i s = .next t) (hr : s.blk.rxs ≠ .idle)
    (hr' : t.blk.rxs = .idle) : i = .rxcTick ∨ i = .rst ∨ ∃ w : Word, i = .buswCtrl w ∧ w.getLsbD 0 = false := by
  obtain ⟨hk, -⟩ := exec_next h
  cases i with
  | rxcTick => exact .inl rfl
  | rst => exact .inr (.inl rfl)
  | buswCtrl w =>
    refine .inr (.inr ⟨w, rfl, ?_⟩)
    rw [← Option.some.inj hk, writeCtrl_rxs] at hr'
    by_contra hset
    exact hr (by simpa [wdataBit, hset] using hr')
  | rxcByte d e x =>
    obtain ⟨-, hk⟩ | same := blockEffect_rxcByte hk
    · exact absurd hr' (rxcByte_rxs_ne_idle hk)
    · exact absurd (same ▸ hr') hr
  | rxcNop => exact absurd (Option.some.inj hk ▸ hr') hr
  | rxcEdge x =>
    rw [← Option.some.inj hk] at hr'
    split at hr'
    next => exact absurd (rxcEdge_rxs _ ▸ hr') hr
    next => exact absurd hr' hr
  | _ =>
    obtain ⟨-, same, -⟩ := fieldsChangeOnlyByTheirWriters s t _ h nofun
    exact absurd ((same nofun rfl).1 ▸ hr') hr

/-! ### One receiver cycle -/

/-- A disabled receiver ignores its cycles (R91). -/
theorem exec_rxc_of_disabled {s : State} {i : Instr} (hen : s.blk.en = false) (hi : i.isRxc = true) : exec i s = .next s := by
  have off (event : Option Block) : rxCycle s event = .next s := by simp [rxCycle, hen]
  cases i with
  | rxcNop => exact off (some s.blk)
  | rxcByte d e t => exact off (rxcByte s.build d s.blk)
  | rxcEdge t => exact off (some (rxcEdge s.blk))
  | rxcTick => exact off (some (rxcTick s.build s.blk))
  | _ => cases hi

section
variable {s : State} (hen : s.blk.en = true)
include hen

/-- An enabled receiver takes a byte whose effect exists (R90). -/
theorem exec_rxcByte_of_enabled {d : Byte} {k : Block} (hk : rxcByte s.build d s.blk = some k) (e t : Bool) :
    exec (.rxcByte d e t) s = .next { s with blk := k } := by
  simp [exec, execRxcByte, rxCycle, hen, hk, State.setBlk]

/-- An enabled receiver takes an edge (R90). -/
theorem exec_rxcEdge_of_enabled (t : Bool) : exec (.rxcEdge t) s = .next { s with blk := rxcEdge s.blk } := by
  simp [exec, execRxcEdge, rxCycle, hen, State.setBlk]

/-- An enabled receiver takes a tick (R90). -/
theorem exec_rxcTick_of_enabled : exec .rxcTick s = .next { s with blk := rxcTick s.build s.blk } := by
  simp [exec, execRxcTick, rxCycle, hen, State.setBlk]

end

/-! ### The byte, branch by branch (R93) -/

/-- Marking the overlap, field by field (R96). -/
theorem markOverlap_eq (b : Build) (k : Block) :
    markOverlap b k = { k with
      slotDirty := k.slotDirty || (decide (b.buffering = .shared) && k.slotFull)
      haz := k.haz || (decide (b.buffering = .shared) && k.slotFull) } := by
  rw [markOverlap_frame, markOverlap_slotDirty, markOverlap_haz]

section
variable {b : Build} {k : Block} (d : Byte)

/-- A byte in IDLE starts a frame (R95). -/
theorem rxcByte_of_idle (hr : k.rxs = .idle) (hb : b.buffering = .shared → k.accBank = 0) :
    rxcByte b d k = some (markOverlap b { k with
      bank := Memory.write k.bank (bankAddr k.accBank 0) d, wrPtr := 1, rxs := .accum, idleCnt := 0 }) := by
  have stored := bankWrite_eq_some (v := d) (k := k).mpr ⟨bankExists_of hb (frameCap_pos b), rfl⟩
  simp only [rxcByte, hr, startFrame, stored, Option.map_some]

/-- A byte in ACCUM with room is appended (R94). -/
theorem rxcByte_of_room (hr : k.rxs = .accum) (hw : k.wrPtr.toNat < b.frameCap)
    (hb : b.buffering = .shared → k.accBank = 0) :
    rxcByte b d k = some (markOverlap b { k with
      bank := Memory.write k.bank (bankAddr k.accBank k.wrPtr.toNat) d, wrPtr := k.wrPtr + 1, idleCnt := 0 }) := by
  have stored := bankWrite_eq_some (v := d) (k := k).mpr ⟨bankExists_of hb hw, rfl⟩
  simp only [rxcByte, hr, hw, if_true, appendByte, stored, Option.map_some]

/-- A byte in ACCUM with the bank full rejects the frame (R97). -/
theorem rxcByte_of_full (hr : k.rxs = .accum) (hw : b.frameCap ≤ k.wrPtr.toNat) :
    rxcByte b d k = some (overflowFrame k) := by
  simp only [rxcByte, hr, if_neg (not_lt.mpr hw)]

/-- A byte in DISCARD is dropped (R98). -/
theorem rxcByte_of_discard (hr : k.rxs = .discard) : rxcByte b d k = some (discardByte k) := by
  simp only [rxcByte, hr]

end

/-! ### Quiet ticks (R99, R194) -/

section
variable {s : State} (hen : s.blk.en = true) (hr : s.blk.rxs ≠ .idle)
include hen hr

/-- A tick whose count stays below the threshold is counted. -/
theorem exec_rxcTick_below (hlt : s.blk.idleCnt.toNat + 1 < max s.blk.idleThr.toNat 1) :
    exec .rxcTick s = .next { s with blk := { s.blk with idleCnt := s.blk.idleCnt + 1 } } := by
  have thr := s.blk.idleThr.isLt
  have notReached : ¬maxU s.blk.idleThr 1 ≤ satInc s.blk.idleCnt := by rw [thr_le_iff]; omega
  rw [exec_rxcTick_of_enabled hen, rxcTick, if_neg hr, if_neg notReached, satInc_of_lt (by omega)]

/-- A tick at the threshold ends the frame. -/
theorem exec_rxcTick_reached (hle : max s.blk.idleThr.toNat 1 ≤ min (s.blk.idleCnt.toNat + 1) 0xFFFF) :
    ∃ k, exec .rxcTick s = .next { s with blk := frameBoundary k } := by
  rw [exec_rxcTick_of_enabled hen]
  obtain ⟨hidle, -⟩ | ⟨-, hlt, -⟩ | ⟨-, -, -, he⟩ | ⟨-, -, -, he⟩ | ⟨-, -, he⟩ := rxcTick_cases s.build s.blk
  · exact absurd hidle hr
  · omega
  all_goals exact ⟨_, by rw [he]⟩

end

end Sys2Proof.Machine

open Sys2Proof Sys2Proof.Machine

/-- Settles O24: the frame held by the effect of the event, and the bank published by an expiry in ACCUM. -/
theorem publishedFrameIsTheBytesReceived : Obligations.PublishedFrameIsTheBytesReceived := by
  intro s t i acc hinv hacc h
  obtain ⟨hk, hbuild, -⟩ := exec_next h
  refine ⟨hbuild ▸ blockEffect_holdsFrame hinv hacc hk, fun hempty hfull => ?_⟩
  obtain ⟨-, hr, hpub⟩ := exec_fills_slot h hempty hfull
  simp only [Block.holdsFrame, hr] at hacc
  obtain ⟨hlen, -, hbytes⟩ := hacc
  rw [hpub]
  exact ⟨hlen.symm, hbytes⟩

/-- Settles O10: `rxCycle` looks at `en` first. -/
theorem disabledReceiverIgnoresCycles : Obligations.DisabledReceiverIgnoresCycles :=
  fun _ _ => exec_rxc_of_disabled

/-- Settles O11: the decoder gives the event, and the beaten inputs are operands that `exec` drops. -/
theorem activityBeatsTheTimer : Obligations.ActivityBeatsTheTimer :=
  ⟨decode_rxcWord, fun _ _ _ _ => ⟨rfl, rfl⟩⟩

/-- Settles O13: the storage after one write, and the overlap marked field by field. -/
theorem firstByteStartsFrame : Obligations.FirstByteStartsFrame := by
  intro s d e t hen hr hb
  refine ⟨_, Memory.read_write _ _ _, ?_⟩
  rw [exec_rxcByte_of_enabled hen (rxcByte_of_idle d hr hb), markOverlap_eq]

/-- Settles O14: as O13, at index `wr_ptr`. -/
theorem byteWithRoomIsAppended : Obligations.ByteWithRoomIsAppended := by
  intro s d e t hen hr hw hb
  refine ⟨_, Memory.read_write _ _ _, ?_⟩
  rw [exec_rxcByte_of_enabled hen (rxcByte_of_room d hr hw hb), markOverlap_eq]

/-- Settles O15: both ways to store a byte (R94, R95) end by marking the overlap. -/
theorem overlapIsMarkedWhenAByteIsStored : Obligations.OverlapIsMarkedWhenAByteIsStored := by
  intro s d e x hen hstored hb
  have stored : ∃ k, rxcByte s.build d s.blk = some k ∧
      bankRead k s.blk.accBank (if s.blk.rxs = .idle then 0 else s.blk.wrPtr.toNat) = some d ∧
      k.slotDirty = (s.blk.slotDirty || (decide (s.build.buffering = .shared) && s.blk.slotFull)) ∧
      k.haz = (s.blk.haz || (decide (s.build.buffering = .shared) && s.blk.slotFull)) := by
    obtain hr | ⟨hr, hw⟩ := hstored
    · exact ⟨_, rxcByte_of_idle d hr hb, by simp [bankRead, Memory.read_write, hr], by simp, by simp⟩
    · exact ⟨_, rxcByte_of_room d hr hw hb, by simp [bankRead, Memory.read_write, hr], by simp, by simp⟩
  obtain ⟨k, hk, hread, hdirty, hhaz⟩ := stored
  refine ⟨_, exec_rxcByte_of_enabled hen hk e x, hread, fun hs hf => ?_, fun h => ?_⟩
  · simp [hdirty, hhaz, hs, hf]
  · obtain h | h := h <;> simp [hdirty, hhaz, h]

/-- Settles O20: the tick's cases (R99 to R101), each in its branch. -/
theorem tickCountsOrEndsTheFrame : Obligations.TickCountsOrEndsTheFrame := by
  refine ⟨fun b d rest => decode_rxcWord b d false false true rest, fun s hen => ?_⟩
  rw [exec_rxcTick_of_enabled hen]
  obtain ⟨hr, he⟩ | ⟨hr, hlt, he⟩ | ⟨hr, hle, hf, he⟩ | ⟨hr, hle, hf, he⟩ | ⟨hr, hle, he⟩ :=
    rxcTick_cases s.build s.blk <;> rw [he]
  · rw [if_pos hr]
  · have thr := s.blk.idleThr.isLt
    rw [if_neg hr, if_neg (not_le.mpr hlt), satInc_of_lt (by omega)]
  · rw [if_neg (by simp [hr]), if_pos hle, if_pos hr, if_neg (by simp [hf])]
    rfl
  · rw [if_neg (by simp [hr]), if_pos hle, if_pos hr, if_pos hf]
    rfl
  · rw [if_neg (by simp [hr]), if_pos hle, if_neg (by simp [hr])]
    rfl

/-- Settles O21, by induction on the number of ticks: the first is counted, or is the last and ends the frame. -/
theorem quietTicksEndTheFrameAtTheThreshold : Obligations.QuietTicksEndTheFrameAtTheThreshold := by
  intro n
  induction n with
  | zero => exact fun s hen hr hlt => ⟨fun _ => by simp [runEvents], fun heq => absurd heq hlt.ne⟩
  | succ n ih =>
    intro s hen hr hlt
    have thr := s.blk.idleThr.isLt
    by_cases hnext : s.blk.idleCnt.toNat + 1 < max s.blk.idleThr.toNat 1
    · have counted : (s.blk.idleCnt + 1).toNat = s.blk.idleCnt.toNat + 1 := BitVec.toNat_add_of_lt (by simp; omega)
      obtain ⟨below, reached⟩ := ih { s with blk := { s.blk with idleCnt := s.blk.idleCnt + 1 } } hen hr
        (by simpa only [counted] using hnext)
      simp only [List.replicate_succ, runEvents, exec_rxcTick_below hen hr hnext]
      simp only [counted] at below reached
      refine ⟨fun hsum => ?_, fun hsum => reached (by omega)⟩
      rw [below (by omega), BitVec.add_assoc, Nat.add_comm n 1, BitVec.ofNat_add]
      rfl
    · refine ⟨fun hsum => by omega, fun hsum => ?_⟩
      obtain rfl : n = 0 := by omega
      obtain ⟨k, hexec⟩ := exec_rxcTick_reached hen hr (by omega)
      exact ⟨{ s with blk := frameBoundary k }, by simp [runEvents, hexec], rfl, rfl, rfl⟩

/-- Settles O22: no event but a byte changes `rxs` other than to IDLE, and few bring it there. -/
theorem framesStartAndEndOnlyByTheirEvents : Obligations.FramesStartAndEndOnlyByTheirEvents := by
  refine fun s t i h => ⟨fun hr hr' => ?_, exec_ends_frame h⟩
  by_contra hi
  obtain ⟨hk, -⟩ := exec_next h
  obtain hidle | ⟨same, -⟩ := blockEffect_keeps_or_ends_frame (fun d e x hx => hi ⟨d, e, x, hx⟩) hk
  · exact hr' hidle
  · exact hr' (same.trans hr)

/-- Settles O23: the slot is filled by an expiry in ACCUM, where R43 bounds `wr_ptr`. -/
theorem noEmptyFrameIsPublished : Obligations.NoEmptyFrameIsPublished := by
  intro s t i hinv h hempty hfull
  obtain ⟨hi, hr, hpub⟩ := exec_fills_slot h hempty hfull
  rw [hpub]
  exact ⟨hi, hr, rfl, hinv.accum_ptr hr⟩

/-- Settles O12: with no input nothing is done, the receiver enabled or not. -/
theorem nopChangesNothing : Obligations.NopChangesNothing :=
  ⟨fun s => exec_of_effect (k := s.blk) rfl, fun b d rest => decode_rxcWord b d false false false rest⟩

/-- Settles O16: the overflow branch of `rxc_byte(D)`. -/
theorem byteAtFullBankOverflows : Obligations.ByteAtFullBankOverflows :=
  fun _ d e t hen hr hw => exec_rxcByte_of_enabled hen (rxcByte_of_full d hr hw.ge) e t

/-- Settles O17: the discard branch of `rxc_byte(D)`. -/
theorem byteInDiscardIsDropped : Obligations.ByteInDiscardIsDropped :=
  fun _ d e t hen hr => exec_rxcByte_of_enabled hen (rxcByte_of_discard d hr) e t

/-- Settles O19: `rxc_edge()` in and outside IDLE, and its word. -/
theorem edgeRestartsTheIdleInterval : Obligations.EdgeRestartsTheIdleInterval := by
  refine ⟨fun s t hen => ?_, fun b d t rest => decode_rxcWord b d false true t rest⟩
  rw [exec_rxcEdge_of_enabled hen, rxcEdge]
  by_cases hr : s.blk.rxs = .idle
  · simp only [if_pos hr]
  · simp only [if_neg hr]

end

section
/-! Proofs of the family "mailbox": the synchronizer's two steps (R116, R117), and the slot's phases under every event (R115). -/

namespace Sys2Proof.Machine

section
variable {b : Build} {k k' : Block} {p : Phase}

/-! ### The synchronizer's steps (R116, R117) -/

/-- Without its token SYNC.SET samples an unchanged input (R116). -/
theorem syncSet_of_no_token (h : k.setPending = false) : syncSet k = k := by simp [syncSet, h]

/-- Without its token SYNC.REL samples an unchanged input (R117). -/
theorem syncRel_of_no_token (h : k.relPending = false) : syncRel k = k := by simp [syncRel, h]

/-- A write of RELEASE without the request, or with nothing held, is ignored (R146). -/
theorem writeRelease_of_ignored {q : Bool} (h : (q && k.held) = false) : writeRelease q k = k := by simp [writeRelease, h]

/-! ### The slot's phases (R115) -/

/-- A phase, token by token: the slot is full in every phase but `empty`, and a token is set in its own phase only. -/
theorem Block.inPhase_iff : k.inPhase p = true ↔
    k.slotFull = decide (p ≠ .empty) ∧ k.setPending = decide (p = .announced) ∧ k.ready = decide (p = .ready) ∧
      k.held = decide (p = .held) ∧ k.relPending = decide (p = .releasing) := by
  cases p <;> simp [Block.inPhase, and_assoc]

/-! R115's table, row by row. -/

theorem publish_inPhase (h : k.inPhase .empty = true) (n : Half) :
    (frameBoundary (publish b n k)).inPhase .announced = true := by
  obtain ⟨-, -, hr, hh, hp⟩ := Block.inPhase_iff.mp h
  simp [Block.inPhase_iff, hr, hh, hp]

theorem syncSet_inPhase (h : k.inPhase .announced = true) : (syncSet k).inPhase .ready = true := by
  obtain ⟨hf, hs, -, hh, hp⟩ := Block.inPhase_iff.mp h
  simp [Block.inPhase_iff, hf, hs, hh, hp]

theorem takeFrame_inPhase (h : k.inPhase .ready = true) : (takeFrame k).inPhase .held = true := by
  obtain ⟨hf, hs, -, -, hp⟩ := Block.inPhase_iff.mp h
  simp [Block.inPhase_iff, hf, hs, hp]

theorem writeRelease_inPhase (h : k.inPhase .held = true) {q : Bool} (hq : q = true) :
    (writeRelease q k).inPhase .releasing = true := by
  obtain ⟨hf, hs, hr, hh, -⟩ := Block.inPhase_iff.mp h
  simp [Block.inPhase_iff, hf, hs, hr, hh, hq]

theorem syncRel_inPhase (h : k.inPhase .releasing = true) : (syncRel k).inPhase .empty = true := by
  obtain ⟨-, hs, hr, hh, hp⟩ := Block.inPhase_iff.mp h
  simp [Block.inPhase_iff, hs, hr, hh, hp]

/-- A tick publishes into an empty slot or keeps the phase (R99 to R101). -/
theorem rxcTick_keeps_phase_or_publishes (h : k.inPhase p = true) :
    (rxcTick b k).inPhase p = true ∨ p = .empty ∧ (rxcTick b k).inPhase .announced = true := by
  obtain ⟨-, he⟩ | ⟨-, -, he⟩ | ⟨-, -, -, he⟩ | ⟨-, -, hf, he⟩ | ⟨-, -, he⟩ := rxcTick_cases b k
  case inr.inr.inr.inl =>
    obtain ⟨full, -⟩ := Block.inPhase_iff.mp h
    obtain rfl : p = .empty := by simpa [hf] using full
    exact .inr ⟨rfl, he ▸ publish_inPhase h _⟩
  all_goals exact .inl (by rw [he]; exact h)

/-- A tick at the threshold in ACCUM with the slot empty publishes the frame (R99 to R101). -/
theorem rxcTick_publishes (hr : k.rxs = .accum) (hf : k.slotFull = false)
    (hle : max k.idleThr.toNat 1 ≤ k.idleCnt.toNat + 1) : rxcTick b k = frameBoundary (publish b k.wrPtr k) := by
  have thr := k.idleThr.isLt
  have reached : maxU k.idleThr 1 ≤ satInc k.idleCnt := by rw [thr_le_iff]; omega
  rw [rxcTick, if_neg (by simp [hr]), if_pos reached]
  simp [expire, hr, hf]

/-- Each move of R115's table is made by its event, the publish where the expiry's condition holds in ACCUM. -/
theorem blockEffect_of_phaseMove {q : Phase} {i : Instr} (h : k.inPhase p = true) (hmove : PhaseMove p q i)
    (hexpiry : p = .empty → k.en = true ∧ k.rxs = .accum ∧ max k.idleThr.toNat 1 ≤ k.idleCnt.toNat + 1) :
    ∃ k', blockEffect b k i = some k' ∧ k'.inPhase q = true := by
  cases hmove with
  | publish =>
    obtain ⟨hen, hr, hle⟩ := hexpiry rfl
    obtain ⟨hf, -⟩ := Block.inPhase_iff.mp h
    exact ⟨_, by rw [blockEffect, if_pos hen, rxcTick_publishes hr hf hle], publish_inPhase h _⟩
  | deliver => exact ⟨_, rfl, syncSet_inPhase h⟩
  | pop =>
    obtain ⟨-, -, hready, -⟩ := Block.inPhase_iff.mp h
    exact ⟨_, by simp [blockEffect, hready], takeFrame_inPhase h⟩
  | release w hw => exact ⟨_, rfl, writeRelease_inPhase h hw⟩
  | free => exact ⟨_, rfl, syncRel_inPhase h⟩

end

/-- Every event keeps the slot's phase, makes the table's move out of it, or is a reset that empties the slot (R115). -/
theorem exec_keeps_or_moves_phase {s t : State} {p : Phase} {i : Instr} (h : s.blk.inPhase p = true)
    (hexec : exec i s = .next t) :
    ∃ q, t.blk.inPhase q = true ∧ (q = p ∨ PhaseMove p q i ∨ (i = .rst ∧ q = .empty)) := by
  obtain ⟨hk, -⟩ := exec_next hexec
  obtain ⟨-, hs, hr, hh, hp⟩ := Block.inPhase_iff.mp h
  cases i with
  | rst => exact ⟨.empty, Option.some.inj hk ▸ rfl, .inr (.inr ⟨rfl, rfl⟩)⟩
  | rxcTick =>
    rw [← Option.some.inj hk]
    split
    next =>
      obtain kept | ⟨rfl, published⟩ := rxcTick_keeps_phase_or_publishes h
      · exact ⟨p, kept, .inl rfl⟩
      · exact ⟨.announced, published, .inr (.inl .publish)⟩
    next => exact ⟨p, h, .inl rfl⟩
  | syncSet =>
    rw [← Option.some.inj hk]
    by_cases phase : p = .announced
    · subst phase
      exact ⟨.ready, syncSet_inPhase h, .inr (.inl .deliver)⟩
    · exact ⟨p, by rwa [syncSet_of_no_token (by simp [hs, phase])], .inl rfl⟩
  | busrPop =>
    rw [← Option.some.inj hk]
    by_cases phase : p = .ready
    · subst phase
      exact ⟨.held, by simpa [hr] using takeFrame_inPhase h, .inr (.inl .pop)⟩
    · exact ⟨p, by simpa [hr, phase] using h, .inl rfl⟩
  | buswRelease w =>
    rw [← Option.some.inj hk]
    by_cases phase : w.getLsbD 0 = true ∧ p = .held
    · obtain ⟨hw, rfl⟩ := phase
      exact ⟨.releasing, writeRelease_inPhase h hw, .inr (.inl (.release w hw))⟩
    · exact ⟨p, by rwa [writeRelease_of_ignored (by simpa [hh, wdataBit] using phase)], .inl rfl⟩
  | syncRel =>
    rw [← Option.some.inj hk]
    by_cases phase : p = .releasing
    · subst phase
      exact ⟨.empty, syncRel_inPhase h, .inr (.inl .free)⟩
    · exact ⟨p, by rwa [syncRel_of_no_token (by simp [hp, phase])], .inl rfl⟩
  | _ =>
    obtain ⟨-, -, -, -, full, set, rel, ready, held, -⟩ := fieldsChangeOnlyByTheirWriters s t _ hexec nofun
    refine ⟨p, ?_, .inl rfl⟩
    rw [Block.inPhase_iff] at h ⊢
    rwa [full nofun nofun, set nofun nofun, rel nofun nofun, ready nofun nofun, held nofun nofun]

/-- RELEASE with nothing held answers OKAY and changes nothing (R146). -/
theorem exec_buswRelease_of_not_held {s : State} (h : s.blk.held = false) (w : Word) :
    exec (.buswRelease w) s = .next { s with resp := some .okayWrite } := by
  simp [exec, execBuswRelease, respondWrite, writeRelease_of_ignored (k := s.blk), h, State.respond]

end Sys2Proof.Machine

open Sys2Proof Sys2Proof.Machine

/-- Settles O27: the moves by the rows of R115's table, and no other event touches the slot or its tokens (O56). -/
theorem mailboxMovesOnlyThroughItsPhases : Obligations.MailboxMovesOnlyThroughItsPhases := by
  intro s p h
  obtain ⟨-, -, hready, hheld, -⟩ := Block.inPhase_iff.mp h
  refine ⟨fun i t => exec_keeps_or_moves_phase h, fun i q hmove hexpiry => ?_, fun hp => ?_, fun w hp => ?_⟩
  · obtain ⟨k, hk, hq⟩ := blockEffect_of_phaseMove h hmove hexpiry
    exact ⟨_, exec_of_effect hk, hq⟩
  · exact exec_busrPop_of_not_ready (by simp [hready, hp])
  · exact exec_buswRelease_of_not_held (by simp [hheld, hp]) w

/-- Settles O25: the two branches of `sync_set()`, and its word. -/
theorem syncSetDeliversTheFlag : Obligations.SyncSetDeliversTheFlag := by
  refine fun s => ⟨fun h => ?_, fun h => ?_, decode_syncWord s.build false⟩
  · simp [exec, execSyncSet, syncSet, h, State.setBlk]
  · simp [exec, execSyncSet, syncSet_of_no_token h]

/-- Settles O26: the two branches of `sync_rel()`, and its word. -/
theorem syncRelFreesTheSlot : Obligations.SyncRelFreesTheSlot := by
  refine fun s => ⟨fun h => ?_, fun h => ?_, decode_syncWord s.build true⟩
  · simp [exec, execSyncRel, syncRel, h, State.setBlk]
  · simp [exec, execSyncRel, syncRel_of_no_token h]

end

section
/-! Proofs of the family "bus interface": how a bus access is told apart (R130, R131), the reads of the registers and of the data
window (R135 to R149), the accesses that are rejected (R132, R133, R150), and the writes of the registers (R137 to R151). -/

namespace Sys2Proof

/-! ### The checks of a bus access (R131) -/

/-- A word access by its offset: alignment first, then the eight registers, then the data window. -/
theorem wordForm_eq (b : Build) (off : Half) :
    wordForm b off =
      if off.toNat % 4 ≠ 0 then .misaligned off
      else if off = 0x0000 then .reg .ctrl
      else if off = 0x0004 then .reg .idleThr
      else if off = 0x0008 then .reg .status
      else if off = 0x000C then .reg .pop
      else if off = 0x0010 then .reg .release
      else if off = 0x0014 then .reg .rxLevel
      else if off = 0x0018 then .reg .idleCnt
      else if off = 0x001C then .reg .config
      else if 0x100 ≤ off.toNat ∧ off.toNat < 0x100 + 4 * b.nw then .reg (.data ((off.toNat - 0x100) / 4))
      else .rsvd off := by
  split
  next hmod => exact wordForm_misaligned (by simpa [offsetAligned] using hmod)
  next hmod =>
    have byRegister : wordForm b off = (regOf b off).elim (.rsvd off) .reg := by
      rw [wordForm_aligned (by simpa [offsetAligned] using hmod)]
      cases regOf b off <;> rfl
    rw [byRegister, regOf]
    simp only [apply_ite (Option.elim · (BusForm.rsvd off) BusForm.reg), Option.elim_some, Option.elim_none]

/-- A SIZE that the formats admit is narrow or a word (R72, R80). -/
theorem size_cases {size : BitVec 2} (h : size ≠ 3) : size = 0 ∨ size = 1 ∨ size = 2 := by
  revert size; decide

/-- An aligned offset between the registers and the data window, or beyond the window, is reserved (R150). -/
theorem offsetReserved_of_range {b : Build} {off : Half} (ha : off.toNat % 4 = 0)
    (h : (0x20 ≤ off.toNat ∧ off.toNat ≤ 0xFC) ∨ 0x100 + 4 * b.nw ≤ off.toNat) : offsetReserved b off = true := by
  simp only [offsetReserved, offsetAligned, ha, Bool.and_eq_true, Bool.or_eq_true, decide_eq_true_eq, beq_self_eq_true,
    true_and]
  omega

namespace Machine

/-! ### The diagnostic fields (R138) -/

section
variable {s : State} {w : Nat} (v : BitVec w)

/-- On one clock a diagnostic field shows the current value. -/
theorem diagnostic_sameClock (hc : s.build.clocking = .sameClock) : diagnostic s v = v := by
  unfold diagnostic; rw [hc]

/-- The draw that a diagnostic field shows in ASYNC mode is one that the read hands out (R15). -/
theorem diagnostic_is_handed_out (hc : s.build.clocking = .async) :
    ∃ m, s.drawn ≤ m ∧ m < s.drawn + (if s.build.clocking = .async then 1 else 0) ∧ diagnostic s v = Config.draw w m :=
  ⟨s.drawn, le_rfl, by simp [hc], diagnostic_async hc v⟩

end

/-- In ASYNC mode no response depends on the receiver's live fields: STATUS, RX_LEVEL and IDLE_CNT alone look at them, through a
diagnostic field (R138). -/
theorem busResponse_of_receiver_differs {s : State} (hc : s.build.clocking = .async) (r : Rxs) (p c : Half) (i : Instr) :
    busResponse { s with blk := { s.blk with rxs := r, wrPtr := p, idleCnt := c } } i = busResponse s i := by
  have drawn {w : Nat} (v : BitVec w) :
      diagnostic { s with blk := { s.blk with rxs := r, wrPtr := p, idleCnt := c } } v = Config.draw w s.drawn :=
    diagnostic_async hc v
  cases i with
  | busrStatus => simp only [busResponse, drawn, diagnostic_async hc]; rfl
  | busrRxLevel | busrIdleCnt => simp only [busResponse, drawn, diagnostic_async hc]
  | _ => rfl

/-! ### The data window, lane by lane (R148) -/

section
variable {s : State}

/-- The window shows a written byte of a clean frame that is ready or held. -/
theorem dataLane_of_frame_byte {n j : Nat} {v : Byte} (htaken : s.blk.ready = true ∨ s.blk.held = true)
    (hclean : s.blk.slotDirty = false) (hlen : 4 * n + j < s.blk.mbLen.toNat)
    (hv : bankRead s.blk s.blk.mbBank (4 * n + j) = some v) : dataLane s n j = v := by
  simp [dataLane, windowByte, htaken, hclean, hlen, hv]

/-- The window has no other byte. -/
theorem windowByte_eq_none {k : Block} {i : Nat} (h : ¬(k.ready = true ∨ k.held = true) ∨ k.slotDirty = true ∨
    ¬i < k.mbLen.toNat ∨ bankRead k k.mbBank i = none) : windowByte k i = none := by
  unfold windowByte
  split
  next hshown =>
    obtain ⟨⟨htaken, hclean⟩, hlen⟩ : ((k.ready = true ∨ k.held = true) ∧ k.slotDirty = false) ∧ i < k.mbLen.toNat := by
      simpa using hshown
    simpa [htaken, hclean, hlen] using h
  next => rfl

/-- A lane for which the window has no byte is that lane's own draw. -/
theorem dataLane_of_no_byte {n j : Nat} (h : windowByte s.blk (4 * n + j) = none) :
    dataLane s n j = Config.draw 8 (s.drawn + j) := by
  rw [dataLane, h]; rfl

end

/-! ### POP and the register writes -/

/-- POP takes a frame that is ready (R143). -/
theorem exec_busrPop_of_ready {s : State} (h : s.blk.ready = true) :
    exec .busrPop s = .next { s with
      blk := { s.blk with ready := false, held := true }
      resp := some (.okayRead (1#1 ++ 0#15 ++ s.blk.mbLen)) } := by
  simp only [exec, execBusrPop, if_pos h]
  rfl

/-- The write of CTRL, field by field (R137). -/
theorem writeCtrl_eq (en rdyIe errIe : Bool) (k : Block) :
    writeCtrl en rdyIe errIe k = { k with
      rxs := if k.en = true ∧ en = false then .idle else k.rxs
      wrPtr := if k.en = true ∧ en = false then 0 else k.wrPtr
      idleCnt := if k.en = true ∧ en = false then 0 else k.idleCnt
      en := en, rdyIe := rdyIe, errIe := errIe } := by
  by_cases h : k.en = true ∧ en = false
  · simp only [writeCtrl, if_pos h]; rfl
  · simp only [writeCtrl, if_neg h]; rfl

/-- The write-1-to-clear of STATUS, flag by flag (R142). -/
theorem clearSticky_eq (o m z : Bool) (k : Block) :
    clearSticky o m z k = { k with
      ovf := if o = true then false else k.ovf
      mboxOvr := if m = true then false else k.mboxOvr
      haz := if z = true then false else k.haz } := by
  have cleared (mask flag : Bool) : (flag && !mask) = if mask = true then false else flag := by
    cases mask <;> simp
  simp only [clearSticky, cleared]

end Machine

end Sys2Proof

open Sys2Proof Sys2Proof.Machine

/-- Settles O5: a narrow access decodes by its size alone, a word access by `wordForm_eq`. -/
theorem busAccessIsCheckedInOrder : Obligations.BusAccessIsCheckedInOrder := by
  intro b size off wdata hsize
  obtain rfl | rfl | rfl := size_cases hsize
  · exact ⟨decode_narrowRead b .bits8 off [], decode_narrowWrite b .bits8 off wdata []⟩
  · exact ⟨decode_narrowRead b .bits16 off [], decode_narrowWrite b .bits16 off wdata []⟩
  · rw [decode_wordRead, decode_wordWrite, wordForm_eq]
    simp only [apply_ite busRead, apply_ite (busWrite wdata)]
    exact ⟨rfl, rfl⟩

/-- Settles O30: RXS is the diagnostic field of the word. -/
theorem statusRead : Obligations.StatusRead := by
  refine fun s => ⟨diagnostic s s.blk.rxs.enc, _, respondDiagnostic_eq _ s, fun hc => ?_, diagnostic_is_handed_out _,
    fun rest => decode_encode (i := .busrStatus) rest rfl⟩
  rw [diagnostic_sameClock _ hc]
  refine ⟨fun hr => ?_, fun hr => ?_, fun hr => ?_⟩ <;> rw [hr] <;> rfl

/-- Settles O31: both words are a diagnostic field. -/
theorem levelAndCountRead : Obligations.LevelAndCountRead := fun s =>
  ⟨⟨_, _, respondDiagnostic_eq _ s, diagnostic_sameClock _, diagnostic_is_handed_out _⟩,
    ⟨_, _, respondDiagnostic_eq _ s, diagnostic_sameClock _, diagnostic_is_handed_out _⟩,
    fun rest => ⟨decode_encode (i := .busrRxLevel) rest rfl, decode_encode (i := .busrIdleCnt) rest rfl⟩⟩

/-- Settles O32: the response of the event, from states that differ in the receiver's live fields. -/
theorem asyncReadsHideTheReceiver : Obligations.AsyncReadsHideTheReceiver := by
  intro s t u i r p c hc _ ht hu
  obtain ⟨-, -, -, hrespT, -⟩ := exec_next ht
  obtain ⟨-, -, -, hrespU, -⟩ := exec_next hu
  rw [hrespT, hrespU, busResponse_of_receiver_differs hc]

/-- Settles O36: lane `j` shows the window's byte, or draw `j` of the four handed out. -/
theorem dataWindowRead : Obligations.DataWindowRead := by
  intro s n
  refine ⟨dataWord s n, s.drawn + 4, (s.drawn + ·),
    fun hn rest => decode_encode (i := .busrData n) rest (decide_eq_true hn), rfl,
    fun i _ j _ h => Nat.add_left_cancel h, fun j hj => ⟨Nat.le_add_right .., Nat.add_lt_add_left hj _⟩, fun j hj => ?_⟩
  rw [dataWord_lane s n hj]
  exact ⟨fun v htaken hclean hlen hv => dataLane_of_frame_byte htaken hclean hlen hv,
    fun h => dataLane_of_no_byte (windowByte_eq_none h)⟩

/-- Settles O40: each rejected access is an error event, and its words are those of a well-formed one. -/
theorem rejectedAccessesChangeNothing : Obligations.RejectedAccessesChangeNothing := by
  intro s size off wdata rest
  refine ⟨⟨exec_busError rfl s, exec_busError rfl s, decode_narrowRead .., decode_narrowWrite ..⟩,
    ⟨exec_busError rfl s, exec_busError rfl s, fun hmod => ?_⟩, exec_busError rfl s, exec_busError rfl s, fun hmod hoff => ?_⟩
  · have misaligned : (!offsetAligned off) = true := by simpa [offsetAligned] using hmod
    exact ⟨decode_encode (i := .busrMisaligned off) rest misaligned,
      decode_encode (i := .buswMisaligned off wdata) rest misaligned⟩
  · have reserved : offsetReserved s.build off = true := offsetReserved_of_range hmod hoff
    exact ⟨decode_encode (i := .busrRsvd off) rest reserved, decode_encode (i := .buswRsvd off wdata) rest reserved⟩

/-- Settles O46: a write to a read-only register is a response alone, and its words are the encoder's. -/
theorem readOnlyWritesAreIgnored : Obligations.ReadOnlyWritesAreIgnored := fun _ n w =>
  ⟨rfl, rfl, rfl, rfl, rfl, fun rest =>
    ⟨decode_encode (i := .buswPop w) rest rfl, decode_encode (i := .buswRxLevel w) rest rfl,
      decode_encode (i := .buswIdleCnt w) rest rfl, decode_encode (i := .buswConfig w) rest rfl,
      fun hn => decode_encode (i := .buswData n w) rest (decide_eq_true hn)⟩⟩

/-- Settles O29: each of the four reads is a response alone, and its word is the encoder's. -/
theorem controlRegistersRead : Obligations.ControlRegistersRead := fun _ =>
  ⟨rfl, rfl, rfl, rfl, fun rest =>
    ⟨decode_encode (i := .busrCtrl) rest rfl, decode_encode (i := .busrIdleThr) rest rfl,
      decode_encode (i := .busrRelease) rest rfl, decode_encode (i := .busrConfig) rest rfl⟩⟩

/-- Settles O34: the two branches of `read_POP()`, and its word. -/
theorem popTakesTheFrame : Obligations.PopTakesTheFrame := fun _ =>
  ⟨exec_busrPop_of_ready, exec_busrPop_of_not_ready, fun rest => decode_encode (i := .busrPop) rest rfl⟩

/-- Settles O42: the fields of `write_CTRL`, and its words. -/
theorem ctrlWrite : Obligations.CtrlWrite := by
  refine fun s w => ⟨?_, fun rest => decode_encode (i := .buswCtrl w) rest rfl⟩
  rw [exec, execBuswCtrl, writeCtrl_eq]
  rfl

/-- Settles O43: the two branches of `write_IDLE_THR`, and its words. -/
theorem idleThrWrite : Obligations.IdleThrWrite := by
  refine fun s w => ⟨fun hen => ?_, fun hen => ?_, fun rest => decode_encode (i := .buswIdleThr w) rest rfl⟩
  · simp [exec, execBuswIdleThr, writeIdleThr, hen, respondWrite, State.setBlk, State.respond, wdataHalf]
  · simp [exec, execBuswIdleThr, writeIdleThr, hen, respondWrite, State.respond]

/-- Settles O44: the flags of STATUS after the write, and its words. -/
theorem statusWriteClears : Obligations.StatusWriteClears := by
  refine fun s w => ⟨?_, fun rest => decode_encode (i := .buswStatus w) rest rfl⟩
  rw [exec, execBuswStatus, clearSticky_eq]
  rfl

/-- Settles O45: the two branches of `write_RELEASE`, and its words. -/
theorem releaseWrite : Obligations.ReleaseWrite := by
  refine fun s w => ⟨fun hw hheld => ?_, fun hignored => ?_, fun rest => decode_encode (i := .buswRelease w) rest rfl⟩
  · simp [exec, execBuswRelease, writeRelease, wdataBit, hw, hheld, respondWrite, State.setBlk, State.respond]
  · have ignored : (wdataBit w 0 && s.blk.held) = false := Bool.and_eq_false_iff.mpr hignored
    simp [exec, execBuswRelease, writeRelease_of_ignored ignored, respondWrite, State.respond]

end

section
/-! Proofs of the family "reset and hazards": the reset event and what the registers read after it (R190), the reset record's
invariant (R42 to R46), and the slot in a quiescent state (R202). -/

namespace Sys2Proof.Machine

/-! ### The reset event (R190) -/

/-- RST replaces the block's record and leaves the rest of the state alone (R190, log entry 10). -/
theorem exec_rst (s : State) : exec .rst s = .next { s with blk := Block.reset } := rfl

/-- The one state that RST answers (R190). -/
theorem eq_reset_of_exec_rst {s t : State} (h : exec .rst s = .next t) : t = { s with blk := Block.reset } :=
  Host.Outcome.next.inj (h.symm.trans (exec_rst s))

/-- An access that leaves the block alone and hands out no draw is its response (R74). -/
theorem exec_of_response {s : State} {i : Instr} {r : Response} (hk : blockEffect s.build s.blk i = some s.blk)
    (hr : busResponse s i = some r) (hd : drawsOf s.build i = 0) : exec i s = .next { s with resp := some r } := by
  rw [exec_of_effect hk, afterEvent, hr, hd]
  rfl

/-- On one clock no event but a DATA read hands out a draw (R138). -/
theorem drawsOf_sameClock {b : Build} (hc : b.clocking = .sameClock) {i : Instr} (hi : ∀ n, i ≠ .busrData n) :
    drawsOf b i = 0 :=
  drawsOf_eq_zero hi fun hdiag => by simp [hc] at hdiag

/-- The words of the registers at the reset values (R190). -/
theorem reset_words : ctrlWord Block.reset = 0 ∧ halfWord Block.reset.idleThr = 0x0000FFFF ∧
    statusWord Block.reset Block.reset.rxs.enc = 0 ∧ halfWord Block.reset.wrPtr = 0 ∧ halfWord Block.reset.idleCnt = 0 := by
  decide

/-! ### The phase of the slot under the invariant (R42, R115) -/

section
variable {b : Build} {k : Block}

/-- Under the invariant the slot is in a phase: that of its one token, or `empty` where no token is set. -/
theorem Block.Inv.exists_inPhase (h : k.Inv b) : ∃ p, k.inPhase p = true := by
  have full := h.slot_full
  obtain ⟨setAlone, readyAlone, heldAlone, relAlone⟩ := h.other_tokens_clear
  by_cases hs : k.setPending = true
  · exact ⟨.announced, by simp [Block.inPhase_iff, full, hs, setAlone hs]⟩
  by_cases hr : k.ready = true
  · exact ⟨.ready, by simp [Block.inPhase_iff, full, hr, readyAlone hr]⟩
  by_cases hh : k.held = true
  · exact ⟨.held, by simp [Block.inPhase_iff, full, hh, heldAlone hh]⟩
  by_cases hp : k.relPending = true
  · exact ⟨.releasing, by simp [Block.inPhase_iff, full, hp, relAlone hp]⟩
  · exact ⟨.empty, by simp [Block.inPhase_iff, full, hs, hr, hh, hp]⟩

/-- Quiescence, field by field (R202). -/
theorem Block.quiescent_iff :
    k.quiescent = true ↔ k.rxs = .idle ∧ k.setPending = false ∧ k.relPending = false := by
  simp [Block.quiescent, and_assoc]

end

end Sys2Proof.Machine

open Sys2Proof Sys2Proof.Machine

/-- Settles O55: of the slot's phases, quiescence rules out the two with a token in flight. -/
theorem quiescentStatesHoldAtMostOneFrame : Obligations.QuiescentStatesHoldAtMostOneFrame := by
  intro b k hinv hquiet
  obtain ⟨hidle, hset, hrel⟩ := Block.quiescent_iff.mp hquiet
  obtain ⟨p, hphase⟩ := hinv.exists_inPhase
  obtain ⟨hfull, hs, hready, -, hp⟩ := Block.inPhase_iff.mp hphase
  cases p with
  | announced => simp [hset] at hs
  | releasing => simp [hrel] at hp
  | empty | ready | held => simp [hphase, hfull, hready, Block.sourceState, hidle]

/-- Settles O47: the reset record has the values, and the word is the encoder's. -/
theorem resetEvent : Obligations.ResetEvent :=
  ⟨fun s => ⟨_, exec_rst s, rfl, rfl⟩, decode_rstWord⟩

/-- Settles O48: the state that RST answers differs in the block's record only. -/
theorem resetKeepsTheModelsFields : Obligations.ResetKeepsTheModelsFields := by
  intro s t h
  obtain rfl := eq_reset_of_exec_rst h
  exact ⟨rfl, rfl, rfl⟩

/-- Settles O50: each register's word at the reset values; on one clock the diagnostic fields are among them. -/
theorem registersAfterReset : Obligations.RegistersAfterReset := by
  intro s t h
  obtain rfl := eq_reset_of_exec_rst h
  obtain ⟨ctrl, idleThr, status, level, count⟩ := reset_words
  refine ⟨exec_of_response rfl ?_ rfl, exec_of_response rfl ?_ rfl, exec_busrPop_of_not_ready rfl, fun hc =>
    ⟨exec_of_response rfl ?_ (drawsOf_sameClock hc nofun), exec_of_response rfl ?_ (drawsOf_sameClock hc nofun),
      exec_of_response rfl ?_ (drawsOf_sameClock hc nofun)⟩⟩
  · simp only [busResponse, ctrl]
  · simp only [busResponse, idleThr]
  · simp only [busResponse, diagnostic_sameClock, hc, status]
  · simp only [busResponse, diagnostic_sameClock, hc, level]
  · simp only [busResponse, diagnostic_sameClock, hc, count]

/-- Settles O52: the reset record meets every field of the invariant, whatever the build. -/
theorem resetMeetsTheInvariant : Obligations.ResetMeetsTheInvariant :=
  ⟨reset_inv, reset_inv _⟩

end
